-- ==== Sys2Proof/Word.lean ====
section
/-!
DEFINITION. The words of the machine (R10, R13): bit vectors for what the spec treats as bits. Their helpers (fields,
concatenation, sign extension) are in Sys2Proof/Machine/Bits.lean.
-/

namespace Sys2Proof

/-- One byte: the CPU data bus, A, X, Y, S and every memory cell (R10). -/
abbrev Byte := BitVec 8

/-- A CPU address or PC (R10). -/
abbrev Word := BitVec 16

/-- A PPU address, 14 bits wide (R10, R45). -/
abbrev PpuAddr := BitVec 14

end Sys2Proof
end

