-- ==== Sys2Proof/Syntax.lean ====
section
/-!
DEFINITION. The instruction set as syntax: one constructor of `Instr` for each of the 256 rows of the opcode table
(R65, R80), its operands the bytes that follow the opcode, in memory order; and the header of a cartridge image (R206).
A constructor's name is its row's mnemonic and addressing mode; where the table has several rows of one mnemonic and
mode (the JAMs, the unofficial NOPs, the two ANCs) the opcode in hexadecimal ends the name.
-/

namespace Sys2Proof

/-- The thirteen operand formats of R65, and the JAM rows' own (R149). -/
inductive Mode where
  | imp | acc | imm | zp | zpx | zpy | abs | abx | aby | ind | izx | izy | rel | jam
deriving DecidableEq, Repr

/-- How many operand bytes follow the opcode (R66). -/
def Mode.operandBytes : Mode → Nat
  | .imp | .acc | .jam => 0
  | .imm | .zp | .zpx | .zpy | .izx | .izy | .rel => 1
  | .abs | .abx | .aby | .ind => 2

/-- An instruction, as the decoder gives it. Operand names: `v` an immediate value, `z` an address in page zero,
`lo` and `hi` the two bytes of an absolute address or pointer, `off` a branch offset. The rows with operands stand
first, in the table's order, then the rows without (compiled Lean numbers a constructor with fields below 245). -/
inductive Instr where
  | oraIzx (z : Byte)
  | sloIzx (z : Byte)
  | nopZp04 (z : Byte)
  | oraZp (z : Byte)
  | aslZp (z : Byte)
  | sloZp (z : Byte)
  | oraImm (v : Byte)
  | ancImm0B (v : Byte)
  | nopAbs (lo hi : Byte)
  | oraAbs (lo hi : Byte)
  | aslAbs (lo hi : Byte)
  | sloAbs (lo hi : Byte)
  | bpl (off : Byte)
  | oraIzy (z : Byte)
  | sloIzy (z : Byte)
  | nopZpx14 (z : Byte)
  | oraZpx (z : Byte)
  | aslZpx (z : Byte)
  | sloZpx (z : Byte)
  | oraAby (lo hi : Byte)
  | sloAby (lo hi : Byte)
  | nopAbx1C (lo hi : Byte)
  | oraAbx (lo hi : Byte)
  | aslAbx (lo hi : Byte)
  | sloAbx (lo hi : Byte)
  | jsr (lo hi : Byte)
  | andIzx (z : Byte)
  | rlaIzx (z : Byte)
  | bitZp (z : Byte)
  | andZp (z : Byte)
  | rolZp (z : Byte)
  | rlaZp (z : Byte)
  | andImm (v : Byte)
  | ancImm2B (v : Byte)
  | bitAbs (lo hi : Byte)
  | andAbs (lo hi : Byte)
  | rolAbs (lo hi : Byte)
  | rlaAbs (lo hi : Byte)
  | bmi (off : Byte)
  | andIzy (z : Byte)
  | rlaIzy (z : Byte)
  | nopZpx34 (z : Byte)
  | andZpx (z : Byte)
  | rolZpx (z : Byte)
  | rlaZpx (z : Byte)
  | andAby (lo hi : Byte)
  | rlaAby (lo hi : Byte)
  | nopAbx3C (lo hi : Byte)
  | andAbx (lo hi : Byte)
  | rolAbx (lo hi : Byte)
  | rlaAbx (lo hi : Byte)
  | eorIzx (z : Byte)
  | sreIzx (z : Byte)
  | nopZp44 (z : Byte)
  | eorZp (z : Byte)
  | lsrZp (z : Byte)
  | sreZp (z : Byte)
  | eorImm (v : Byte)
  | alrImm (v : Byte)
  | jmpAbs (lo hi : Byte)
  | eorAbs (lo hi : Byte)
  | lsrAbs (lo hi : Byte)
  | sreAbs (lo hi : Byte)
  | bvc (off : Byte)
  | eorIzy (z : Byte)
  | sreIzy (z : Byte)
  | nopZpx54 (z : Byte)
  | eorZpx (z : Byte)
  | lsrZpx (z : Byte)
  | sreZpx (z : Byte)
  | eorAby (lo hi : Byte)
  | sreAby (lo hi : Byte)
  | nopAbx5C (lo hi : Byte)
  | eorAbx (lo hi : Byte)
  | lsrAbx (lo hi : Byte)
  | sreAbx (lo hi : Byte)
  | adcIzx (z : Byte)
  | rraIzx (z : Byte)
  | nopZp64 (z : Byte)
  | adcZp (z : Byte)
  | rorZp (z : Byte)
  | rraZp (z : Byte)
  | adcImm (v : Byte)
  | arrImm (v : Byte)
  | jmpInd (lo hi : Byte)
  | adcAbs (lo hi : Byte)
  | rorAbs (lo hi : Byte)
  | rraAbs (lo hi : Byte)
  | bvs (off : Byte)
  | adcIzy (z : Byte)
  | rraIzy (z : Byte)
  | nopZpx74 (z : Byte)
  | adcZpx (z : Byte)
  | rorZpx (z : Byte)
  | rraZpx (z : Byte)
  | adcAby (lo hi : Byte)
  | rraAby (lo hi : Byte)
  | nopAbx7C (lo hi : Byte)
  | adcAbx (lo hi : Byte)
  | rorAbx (lo hi : Byte)
  | rraAbx (lo hi : Byte)
  | nopImm80 (v : Byte)
  | staIzx (z : Byte)
  | nopImm82 (v : Byte)
  | saxIzx (z : Byte)
  | styZp (z : Byte)
  | staZp (z : Byte)
  | stxZp (z : Byte)
  | saxZp (z : Byte)
  | nopImm89 (v : Byte)
  | aneImm (v : Byte)
  | styAbs (lo hi : Byte)
  | staAbs (lo hi : Byte)
  | stxAbs (lo hi : Byte)
  | saxAbs (lo hi : Byte)
  | bcc (off : Byte)
  | staIzy (z : Byte)
  | shaIzy (z : Byte)
  | styZpx (z : Byte)
  | staZpx (z : Byte)
  | stxZpy (z : Byte)
  | saxZpy (z : Byte)
  | staAby (lo hi : Byte)
  | tasAby (lo hi : Byte)
  | shyAbx (lo hi : Byte)
  | staAbx (lo hi : Byte)
  | shxAby (lo hi : Byte)
  | shaAby (lo hi : Byte)
  | ldyImm (v : Byte)
  | ldaIzx (z : Byte)
  | ldxImm (v : Byte)
  | laxIzx (z : Byte)
  | ldyZp (z : Byte)
  | ldaZp (z : Byte)
  | ldxZp (z : Byte)
  | laxZp (z : Byte)
  | ldaImm (v : Byte)
  | lxaImm (v : Byte)
  | ldyAbs (lo hi : Byte)
  | ldaAbs (lo hi : Byte)
  | ldxAbs (lo hi : Byte)
  | laxAbs (lo hi : Byte)
  | bcs (off : Byte)
  | ldaIzy (z : Byte)
  | laxIzy (z : Byte)
  | ldyZpx (z : Byte)
  | ldaZpx (z : Byte)
  | ldxZpy (z : Byte)
  | laxZpy (z : Byte)
  | ldaAby (lo hi : Byte)
  | lasAby (lo hi : Byte)
  | ldyAbx (lo hi : Byte)
  | ldaAbx (lo hi : Byte)
  | ldxAby (lo hi : Byte)
  | laxAby (lo hi : Byte)
  | cpyImm (v : Byte)
  | cmpIzx (z : Byte)
  | nopImmC2 (v : Byte)
  | dcpIzx (z : Byte)
  | cpyZp (z : Byte)
  | cmpZp (z : Byte)
  | decZp (z : Byte)
  | dcpZp (z : Byte)
  | cmpImm (v : Byte)
  | sbxImm (v : Byte)
  | cpyAbs (lo hi : Byte)
  | cmpAbs (lo hi : Byte)
  | decAbs (lo hi : Byte)
  | dcpAbs (lo hi : Byte)
  | bne (off : Byte)
  | cmpIzy (z : Byte)
  | dcpIzy (z : Byte)
  | nopZpxD4 (z : Byte)
  | cmpZpx (z : Byte)
  | decZpx (z : Byte)
  | dcpZpx (z : Byte)
  | cmpAby (lo hi : Byte)
  | dcpAby (lo hi : Byte)
  | nopAbxDC (lo hi : Byte)
  | cmpAbx (lo hi : Byte)
  | decAbx (lo hi : Byte)
  | dcpAbx (lo hi : Byte)
  | cpxImm (v : Byte)
  | sbcIzx (z : Byte)
  | nopImmE2 (v : Byte)
  | iscIzx (z : Byte)
  | cpxZp (z : Byte)
  | sbcZp (z : Byte)
  | incZp (z : Byte)
  | iscZp (z : Byte)
  | sbcImm (v : Byte)
  | usbcImm (v : Byte)
  | cpxAbs (lo hi : Byte)
  | sbcAbs (lo hi : Byte)
  | incAbs (lo hi : Byte)
  | iscAbs (lo hi : Byte)
  | beq (off : Byte)
  | sbcIzy (z : Byte)
  | iscIzy (z : Byte)
  | nopZpxF4 (z : Byte)
  | sbcZpx (z : Byte)
  | incZpx (z : Byte)
  | iscZpx (z : Byte)
  | sbcAby (lo hi : Byte)
  | iscAby (lo hi : Byte)
  | nopAbxFC (lo hi : Byte)
  | sbcAbx (lo hi : Byte)
  | incAbx (lo hi : Byte)
  | iscAbx (lo hi : Byte)
  | brk
  | jam02
  | php
  | aslAcc
  | jam12
  | clc
  | nop1A
  | jam22
  | plp
  | rolAcc
  | jam32
  | sec
  | nop3A
  | rti
  | jam42
  | pha
  | lsrAcc
  | jam52
  | cli
  | nop5A
  | rts
  | jam62
  | pla
  | rorAcc
  | jam72
  | sei
  | nop7A
  | dey
  | txa
  | jam92
  | tya
  | txs
  | tay
  | tax
  | jamB2
  | clv
  | tsx
  | iny
  | dex
  | jamD2
  | cld
  | nopDA
  | inx
  | nop
  | jamF2
  | sed
  | nopFA
deriving DecidableEq, Repr

/-- The opcode byte of an instruction (R80). -/
def Instr.opcode : Instr → Byte
  | .brk => 0x00#8
  | .oraIzx _ => 0x01#8
  | .jam02 => 0x02#8
  | .sloIzx _ => 0x03#8
  | .nopZp04 _ => 0x04#8
  | .oraZp _ => 0x05#8
  | .aslZp _ => 0x06#8
  | .sloZp _ => 0x07#8
  | .php => 0x08#8
  | .oraImm _ => 0x09#8
  | .aslAcc => 0x0A#8
  | .ancImm0B _ => 0x0B#8
  | .nopAbs _ _ => 0x0C#8
  | .oraAbs _ _ => 0x0D#8
  | .aslAbs _ _ => 0x0E#8
  | .sloAbs _ _ => 0x0F#8
  | .bpl _ => 0x10#8
  | .oraIzy _ => 0x11#8
  | .jam12 => 0x12#8
  | .sloIzy _ => 0x13#8
  | .nopZpx14 _ => 0x14#8
  | .oraZpx _ => 0x15#8
  | .aslZpx _ => 0x16#8
  | .sloZpx _ => 0x17#8
  | .clc => 0x18#8
  | .oraAby _ _ => 0x19#8
  | .nop1A => 0x1A#8
  | .sloAby _ _ => 0x1B#8
  | .nopAbx1C _ _ => 0x1C#8
  | .oraAbx _ _ => 0x1D#8
  | .aslAbx _ _ => 0x1E#8
  | .sloAbx _ _ => 0x1F#8
  | .jsr _ _ => 0x20#8
  | .andIzx _ => 0x21#8
  | .jam22 => 0x22#8
  | .rlaIzx _ => 0x23#8
  | .bitZp _ => 0x24#8
  | .andZp _ => 0x25#8
  | .rolZp _ => 0x26#8
  | .rlaZp _ => 0x27#8
  | .plp => 0x28#8
  | .andImm _ => 0x29#8
  | .rolAcc => 0x2A#8
  | .ancImm2B _ => 0x2B#8
  | .bitAbs _ _ => 0x2C#8
  | .andAbs _ _ => 0x2D#8
  | .rolAbs _ _ => 0x2E#8
  | .rlaAbs _ _ => 0x2F#8
  | .bmi _ => 0x30#8
  | .andIzy _ => 0x31#8
  | .jam32 => 0x32#8
  | .rlaIzy _ => 0x33#8
  | .nopZpx34 _ => 0x34#8
  | .andZpx _ => 0x35#8
  | .rolZpx _ => 0x36#8
  | .rlaZpx _ => 0x37#8
  | .sec => 0x38#8
  | .andAby _ _ => 0x39#8
  | .nop3A => 0x3A#8
  | .rlaAby _ _ => 0x3B#8
  | .nopAbx3C _ _ => 0x3C#8
  | .andAbx _ _ => 0x3D#8
  | .rolAbx _ _ => 0x3E#8
  | .rlaAbx _ _ => 0x3F#8
  | .rti => 0x40#8
  | .eorIzx _ => 0x41#8
  | .jam42 => 0x42#8
  | .sreIzx _ => 0x43#8
  | .nopZp44 _ => 0x44#8
  | .eorZp _ => 0x45#8
  | .lsrZp _ => 0x46#8
  | .sreZp _ => 0x47#8
  | .pha => 0x48#8
  | .eorImm _ => 0x49#8
  | .lsrAcc => 0x4A#8
  | .alrImm _ => 0x4B#8
  | .jmpAbs _ _ => 0x4C#8
  | .eorAbs _ _ => 0x4D#8
  | .lsrAbs _ _ => 0x4E#8
  | .sreAbs _ _ => 0x4F#8
  | .bvc _ => 0x50#8
  | .eorIzy _ => 0x51#8
  | .jam52 => 0x52#8
  | .sreIzy _ => 0x53#8
  | .nopZpx54 _ => 0x54#8
  | .eorZpx _ => 0x55#8
  | .lsrZpx _ => 0x56#8
  | .sreZpx _ => 0x57#8
  | .cli => 0x58#8
  | .eorAby _ _ => 0x59#8
  | .nop5A => 0x5A#8
  | .sreAby _ _ => 0x5B#8
  | .nopAbx5C _ _ => 0x5C#8
  | .eorAbx _ _ => 0x5D#8
  | .lsrAbx _ _ => 0x5E#8
  | .sreAbx _ _ => 0x5F#8
  | .rts => 0x60#8
  | .adcIzx _ => 0x61#8
  | .jam62 => 0x62#8
  | .rraIzx _ => 0x63#8
  | .nopZp64 _ => 0x64#8
  | .adcZp _ => 0x65#8
  | .rorZp _ => 0x66#8
  | .rraZp _ => 0x67#8
  | .pla => 0x68#8
  | .adcImm _ => 0x69#8
  | .rorAcc => 0x6A#8
  | .arrImm _ => 0x6B#8
  | .jmpInd _ _ => 0x6C#8
  | .adcAbs _ _ => 0x6D#8
  | .rorAbs _ _ => 0x6E#8
  | .rraAbs _ _ => 0x6F#8
  | .bvs _ => 0x70#8
  | .adcIzy _ => 0x71#8
  | .jam72 => 0x72#8
  | .rraIzy _ => 0x73#8
  | .nopZpx74 _ => 0x74#8
  | .adcZpx _ => 0x75#8
  | .rorZpx _ => 0x76#8
  | .rraZpx _ => 0x77#8
  | .sei => 0x78#8
  | .adcAby _ _ => 0x79#8
  | .nop7A => 0x7A#8
  | .rraAby _ _ => 0x7B#8
  | .nopAbx7C _ _ => 0x7C#8
  | .adcAbx _ _ => 0x7D#8
  | .rorAbx _ _ => 0x7E#8
  | .rraAbx _ _ => 0x7F#8
  | .nopImm80 _ => 0x80#8
  | .staIzx _ => 0x81#8
  | .nopImm82 _ => 0x82#8
  | .saxIzx _ => 0x83#8
  | .styZp _ => 0x84#8
  | .staZp _ => 0x85#8
  | .stxZp _ => 0x86#8
  | .saxZp _ => 0x87#8
  | .dey => 0x88#8
  | .nopImm89 _ => 0x89#8
  | .txa => 0x8A#8
  | .aneImm _ => 0x8B#8
  | .styAbs _ _ => 0x8C#8
  | .staAbs _ _ => 0x8D#8
  | .stxAbs _ _ => 0x8E#8
  | .saxAbs _ _ => 0x8F#8
  | .bcc _ => 0x90#8
  | .staIzy _ => 0x91#8
  | .jam92 => 0x92#8
  | .shaIzy _ => 0x93#8
  | .styZpx _ => 0x94#8
  | .staZpx _ => 0x95#8
  | .stxZpy _ => 0x96#8
  | .saxZpy _ => 0x97#8
  | .tya => 0x98#8
  | .staAby _ _ => 0x99#8
  | .txs => 0x9A#8
  | .tasAby _ _ => 0x9B#8
  | .shyAbx _ _ => 0x9C#8
  | .staAbx _ _ => 0x9D#8
  | .shxAby _ _ => 0x9E#8
  | .shaAby _ _ => 0x9F#8
  | .ldyImm _ => 0xA0#8
  | .ldaIzx _ => 0xA1#8
  | .ldxImm _ => 0xA2#8
  | .laxIzx _ => 0xA3#8
  | .ldyZp _ => 0xA4#8
  | .ldaZp _ => 0xA5#8
  | .ldxZp _ => 0xA6#8
  | .laxZp _ => 0xA7#8
  | .tay => 0xA8#8
  | .ldaImm _ => 0xA9#8
  | .tax => 0xAA#8
  | .lxaImm _ => 0xAB#8
  | .ldyAbs _ _ => 0xAC#8
  | .ldaAbs _ _ => 0xAD#8
  | .ldxAbs _ _ => 0xAE#8
  | .laxAbs _ _ => 0xAF#8
  | .bcs _ => 0xB0#8
  | .ldaIzy _ => 0xB1#8
  | .jamB2 => 0xB2#8
  | .laxIzy _ => 0xB3#8
  | .ldyZpx _ => 0xB4#8
  | .ldaZpx _ => 0xB5#8
  | .ldxZpy _ => 0xB6#8
  | .laxZpy _ => 0xB7#8
  | .clv => 0xB8#8
  | .ldaAby _ _ => 0xB9#8
  | .tsx => 0xBA#8
  | .lasAby _ _ => 0xBB#8
  | .ldyAbx _ _ => 0xBC#8
  | .ldaAbx _ _ => 0xBD#8
  | .ldxAby _ _ => 0xBE#8
  | .laxAby _ _ => 0xBF#8
  | .cpyImm _ => 0xC0#8
  | .cmpIzx _ => 0xC1#8
  | .nopImmC2 _ => 0xC2#8
  | .dcpIzx _ => 0xC3#8
  | .cpyZp _ => 0xC4#8
  | .cmpZp _ => 0xC5#8
  | .decZp _ => 0xC6#8
  | .dcpZp _ => 0xC7#8
  | .iny => 0xC8#8
  | .cmpImm _ => 0xC9#8
  | .dex => 0xCA#8
  | .sbxImm _ => 0xCB#8
  | .cpyAbs _ _ => 0xCC#8
  | .cmpAbs _ _ => 0xCD#8
  | .decAbs _ _ => 0xCE#8
  | .dcpAbs _ _ => 0xCF#8
  | .bne _ => 0xD0#8
  | .cmpIzy _ => 0xD1#8
  | .jamD2 => 0xD2#8
  | .dcpIzy _ => 0xD3#8
  | .nopZpxD4 _ => 0xD4#8
  | .cmpZpx _ => 0xD5#8
  | .decZpx _ => 0xD6#8
  | .dcpZpx _ => 0xD7#8
  | .cld => 0xD8#8
  | .cmpAby _ _ => 0xD9#8
  | .nopDA => 0xDA#8
  | .dcpAby _ _ => 0xDB#8
  | .nopAbxDC _ _ => 0xDC#8
  | .cmpAbx _ _ => 0xDD#8
  | .decAbx _ _ => 0xDE#8
  | .dcpAbx _ _ => 0xDF#8
  | .cpxImm _ => 0xE0#8
  | .sbcIzx _ => 0xE1#8
  | .nopImmE2 _ => 0xE2#8
  | .iscIzx _ => 0xE3#8
  | .cpxZp _ => 0xE4#8
  | .sbcZp _ => 0xE5#8
  | .incZp _ => 0xE6#8
  | .iscZp _ => 0xE7#8
  | .inx => 0xE8#8
  | .sbcImm _ => 0xE9#8
  | .nop => 0xEA#8
  | .usbcImm _ => 0xEB#8
  | .cpxAbs _ _ => 0xEC#8
  | .sbcAbs _ _ => 0xED#8
  | .incAbs _ _ => 0xEE#8
  | .iscAbs _ _ => 0xEF#8
  | .beq _ => 0xF0#8
  | .sbcIzy _ => 0xF1#8
  | .jamF2 => 0xF2#8
  | .iscIzy _ => 0xF3#8
  | .nopZpxF4 _ => 0xF4#8
  | .sbcZpx _ => 0xF5#8
  | .incZpx _ => 0xF6#8
  | .iscZpx _ => 0xF7#8
  | .sed => 0xF8#8
  | .sbcAby _ _ => 0xF9#8
  | .nopFA => 0xFA#8
  | .iscAby _ _ => 0xFB#8
  | .nopAbxFC _ _ => 0xFC#8
  | .sbcAbx _ _ => 0xFD#8
  | .incAbx _ _ => 0xFE#8
  | .iscAbx _ _ => 0xFF#8

/-- The addressing mode of an instruction (R80). -/
def Instr.mode : Instr → Mode
  | .brk => .imp
  | .oraIzx _ => .izx
  | .jam02 => .jam
  | .sloIzx _ => .izx
  | .nopZp04 _ => .zp
  | .oraZp _ => .zp
  | .aslZp _ => .zp
  | .sloZp _ => .zp
  | .php => .imp
  | .oraImm _ => .imm
  | .aslAcc => .acc
  | .ancImm0B _ => .imm
  | .nopAbs _ _ => .abs
  | .oraAbs _ _ => .abs
  | .aslAbs _ _ => .abs
  | .sloAbs _ _ => .abs
  | .bpl _ => .rel
  | .oraIzy _ => .izy
  | .jam12 => .jam
  | .sloIzy _ => .izy
  | .nopZpx14 _ => .zpx
  | .oraZpx _ => .zpx
  | .aslZpx _ => .zpx
  | .sloZpx _ => .zpx
  | .clc => .imp
  | .oraAby _ _ => .aby
  | .nop1A => .imp
  | .sloAby _ _ => .aby
  | .nopAbx1C _ _ => .abx
  | .oraAbx _ _ => .abx
  | .aslAbx _ _ => .abx
  | .sloAbx _ _ => .abx
  | .jsr _ _ => .abs
  | .andIzx _ => .izx
  | .jam22 => .jam
  | .rlaIzx _ => .izx
  | .bitZp _ => .zp
  | .andZp _ => .zp
  | .rolZp _ => .zp
  | .rlaZp _ => .zp
  | .plp => .imp
  | .andImm _ => .imm
  | .rolAcc => .acc
  | .ancImm2B _ => .imm
  | .bitAbs _ _ => .abs
  | .andAbs _ _ => .abs
  | .rolAbs _ _ => .abs
  | .rlaAbs _ _ => .abs
  | .bmi _ => .rel
  | .andIzy _ => .izy
  | .jam32 => .jam
  | .rlaIzy _ => .izy
  | .nopZpx34 _ => .zpx
  | .andZpx _ => .zpx
  | .rolZpx _ => .zpx
  | .rlaZpx _ => .zpx
  | .sec => .imp
  | .andAby _ _ => .aby
  | .nop3A => .imp
  | .rlaAby _ _ => .aby
  | .nopAbx3C _ _ => .abx
  | .andAbx _ _ => .abx
  | .rolAbx _ _ => .abx
  | .rlaAbx _ _ => .abx
  | .rti => .imp
  | .eorIzx _ => .izx
  | .jam42 => .jam
  | .sreIzx _ => .izx
  | .nopZp44 _ => .zp
  | .eorZp _ => .zp
  | .lsrZp _ => .zp
  | .sreZp _ => .zp
  | .pha => .imp
  | .eorImm _ => .imm
  | .lsrAcc => .acc
  | .alrImm _ => .imm
  | .jmpAbs _ _ => .abs
  | .eorAbs _ _ => .abs
  | .lsrAbs _ _ => .abs
  | .sreAbs _ _ => .abs
  | .bvc _ => .rel
  | .eorIzy _ => .izy
  | .jam52 => .jam
  | .sreIzy _ => .izy
  | .nopZpx54 _ => .zpx
  | .eorZpx _ => .zpx
  | .lsrZpx _ => .zpx
  | .sreZpx _ => .zpx
  | .cli => .imp
  | .eorAby _ _ => .aby
  | .nop5A => .imp
  | .sreAby _ _ => .aby
  | .nopAbx5C _ _ => .abx
  | .eorAbx _ _ => .abx
  | .lsrAbx _ _ => .abx
  | .sreAbx _ _ => .abx
  | .rts => .imp
  | .adcIzx _ => .izx
  | .jam62 => .jam
  | .rraIzx _ => .izx
  | .nopZp64 _ => .zp
  | .adcZp _ => .zp
  | .rorZp _ => .zp
  | .rraZp _ => .zp
  | .pla => .imp
  | .adcImm _ => .imm
  | .rorAcc => .acc
  | .arrImm _ => .imm
  | .jmpInd _ _ => .ind
  | .adcAbs _ _ => .abs
  | .rorAbs _ _ => .abs
  | .rraAbs _ _ => .abs
  | .bvs _ => .rel
  | .adcIzy _ => .izy
  | .jam72 => .jam
  | .rraIzy _ => .izy
  | .nopZpx74 _ => .zpx
  | .adcZpx _ => .zpx
  | .rorZpx _ => .zpx
  | .rraZpx _ => .zpx
  | .sei => .imp
  | .adcAby _ _ => .aby
  | .nop7A => .imp
  | .rraAby _ _ => .aby
  | .nopAbx7C _ _ => .abx
  | .adcAbx _ _ => .abx
  | .rorAbx _ _ => .abx
  | .rraAbx _ _ => .abx
  | .nopImm80 _ => .imm
  | .staIzx _ => .izx
  | .nopImm82 _ => .imm
  | .saxIzx _ => .izx
  | .styZp _ => .zp
  | .staZp _ => .zp
  | .stxZp _ => .zp
  | .saxZp _ => .zp
  | .dey => .imp
  | .nopImm89 _ => .imm
  | .txa => .imp
  | .aneImm _ => .imm
  | .styAbs _ _ => .abs
  | .staAbs _ _ => .abs
  | .stxAbs _ _ => .abs
  | .saxAbs _ _ => .abs
  | .bcc _ => .rel
  | .staIzy _ => .izy
  | .jam92 => .jam
  | .shaIzy _ => .izy
  | .styZpx _ => .zpx
  | .staZpx _ => .zpx
  | .stxZpy _ => .zpy
  | .saxZpy _ => .zpy
  | .tya => .imp
  | .staAby _ _ => .aby
  | .txs => .imp
  | .tasAby _ _ => .aby
  | .shyAbx _ _ => .abx
  | .staAbx _ _ => .abx
  | .shxAby _ _ => .aby
  | .shaAby _ _ => .aby
  | .ldyImm _ => .imm
  | .ldaIzx _ => .izx
  | .ldxImm _ => .imm
  | .laxIzx _ => .izx
  | .ldyZp _ => .zp
  | .ldaZp _ => .zp
  | .ldxZp _ => .zp
  | .laxZp _ => .zp
  | .tay => .imp
  | .ldaImm _ => .imm
  | .tax => .imp
  | .lxaImm _ => .imm
  | .ldyAbs _ _ => .abs
  | .ldaAbs _ _ => .abs
  | .ldxAbs _ _ => .abs
  | .laxAbs _ _ => .abs
  | .bcs _ => .rel
  | .ldaIzy _ => .izy
  | .jamB2 => .jam
  | .laxIzy _ => .izy
  | .ldyZpx _ => .zpx
  | .ldaZpx _ => .zpx
  | .ldxZpy _ => .zpy
  | .laxZpy _ => .zpy
  | .clv => .imp
  | .ldaAby _ _ => .aby
  | .tsx => .imp
  | .lasAby _ _ => .aby
  | .ldyAbx _ _ => .abx
  | .ldaAbx _ _ => .abx
  | .ldxAby _ _ => .aby
  | .laxAby _ _ => .aby
  | .cpyImm _ => .imm
  | .cmpIzx _ => .izx
  | .nopImmC2 _ => .imm
  | .dcpIzx _ => .izx
  | .cpyZp _ => .zp
  | .cmpZp _ => .zp
  | .decZp _ => .zp
  | .dcpZp _ => .zp
  | .iny => .imp
  | .cmpImm _ => .imm
  | .dex => .imp
  | .sbxImm _ => .imm
  | .cpyAbs _ _ => .abs
  | .cmpAbs _ _ => .abs
  | .decAbs _ _ => .abs
  | .dcpAbs _ _ => .abs
  | .bne _ => .rel
  | .cmpIzy _ => .izy
  | .jamD2 => .jam
  | .dcpIzy _ => .izy
  | .nopZpxD4 _ => .zpx
  | .cmpZpx _ => .zpx
  | .decZpx _ => .zpx
  | .dcpZpx _ => .zpx
  | .cld => .imp
  | .cmpAby _ _ => .aby
  | .nopDA => .imp
  | .dcpAby _ _ => .aby
  | .nopAbxDC _ _ => .abx
  | .cmpAbx _ _ => .abx
  | .decAbx _ _ => .abx
  | .dcpAbx _ _ => .abx
  | .cpxImm _ => .imm
  | .sbcIzx _ => .izx
  | .nopImmE2 _ => .imm
  | .iscIzx _ => .izx
  | .cpxZp _ => .zp
  | .sbcZp _ => .zp
  | .incZp _ => .zp
  | .iscZp _ => .zp
  | .inx => .imp
  | .sbcImm _ => .imm
  | .nop => .imp
  | .usbcImm _ => .imm
  | .cpxAbs _ _ => .abs
  | .sbcAbs _ _ => .abs
  | .incAbs _ _ => .abs
  | .iscAbs _ _ => .abs
  | .beq _ => .rel
  | .sbcIzy _ => .izy
  | .jamF2 => .jam
  | .iscIzy _ => .izy
  | .nopZpxF4 _ => .zpx
  | .sbcZpx _ => .zpx
  | .incZpx _ => .zpx
  | .iscZpx _ => .zpx
  | .sed => .imp
  | .sbcAby _ _ => .aby
  | .nopFA => .imp
  | .iscAby _ _ => .aby
  | .nopAbxFC _ _ => .abx
  | .sbcAbx _ _ => .abx
  | .incAbx _ _ => .abx
  | .iscAbx _ _ => .abx

/-- The operand bytes of an instruction, in memory order (R48, R65). -/
def Instr.operands : Instr → List Byte
  | .brk => []
  | .oraIzx z => [z]
  | .jam02 => []
  | .sloIzx z => [z]
  | .nopZp04 z => [z]
  | .oraZp z => [z]
  | .aslZp z => [z]
  | .sloZp z => [z]
  | .php => []
  | .oraImm v => [v]
  | .aslAcc => []
  | .ancImm0B v => [v]
  | .nopAbs lo hi => [lo, hi]
  | .oraAbs lo hi => [lo, hi]
  | .aslAbs lo hi => [lo, hi]
  | .sloAbs lo hi => [lo, hi]
  | .bpl off => [off]
  | .oraIzy z => [z]
  | .jam12 => []
  | .sloIzy z => [z]
  | .nopZpx14 z => [z]
  | .oraZpx z => [z]
  | .aslZpx z => [z]
  | .sloZpx z => [z]
  | .clc => []
  | .oraAby lo hi => [lo, hi]
  | .nop1A => []
  | .sloAby lo hi => [lo, hi]
  | .nopAbx1C lo hi => [lo, hi]
  | .oraAbx lo hi => [lo, hi]
  | .aslAbx lo hi => [lo, hi]
  | .sloAbx lo hi => [lo, hi]
  | .jsr lo hi => [lo, hi]
  | .andIzx z => [z]
  | .jam22 => []
  | .rlaIzx z => [z]
  | .bitZp z => [z]
  | .andZp z => [z]
  | .rolZp z => [z]
  | .rlaZp z => [z]
  | .plp => []
  | .andImm v => [v]
  | .rolAcc => []
  | .ancImm2B v => [v]
  | .bitAbs lo hi => [lo, hi]
  | .andAbs lo hi => [lo, hi]
  | .rolAbs lo hi => [lo, hi]
  | .rlaAbs lo hi => [lo, hi]
  | .bmi off => [off]
  | .andIzy z => [z]
  | .jam32 => []
  | .rlaIzy z => [z]
  | .nopZpx34 z => [z]
  | .andZpx z => [z]
  | .rolZpx z => [z]
  | .rlaZpx z => [z]
  | .sec => []
  | .andAby lo hi => [lo, hi]
  | .nop3A => []
  | .rlaAby lo hi => [lo, hi]
  | .nopAbx3C lo hi => [lo, hi]
  | .andAbx lo hi => [lo, hi]
  | .rolAbx lo hi => [lo, hi]
  | .rlaAbx lo hi => [lo, hi]
  | .rti => []
  | .eorIzx z => [z]
  | .jam42 => []
  | .sreIzx z => [z]
  | .nopZp44 z => [z]
  | .eorZp z => [z]
  | .lsrZp z => [z]
  | .sreZp z => [z]
  | .pha => []
  | .eorImm v => [v]
  | .lsrAcc => []
  | .alrImm v => [v]
  | .jmpAbs lo hi => [lo, hi]
  | .eorAbs lo hi => [lo, hi]
  | .lsrAbs lo hi => [lo, hi]
  | .sreAbs lo hi => [lo, hi]
  | .bvc off => [off]
  | .eorIzy z => [z]
  | .jam52 => []
  | .sreIzy z => [z]
  | .nopZpx54 z => [z]
  | .eorZpx z => [z]
  | .lsrZpx z => [z]
  | .sreZpx z => [z]
  | .cli => []
  | .eorAby lo hi => [lo, hi]
  | .nop5A => []
  | .sreAby lo hi => [lo, hi]
  | .nopAbx5C lo hi => [lo, hi]
  | .eorAbx lo hi => [lo, hi]
  | .lsrAbx lo hi => [lo, hi]
  | .sreAbx lo hi => [lo, hi]
  | .rts => []
  | .adcIzx z => [z]
  | .jam62 => []
  | .rraIzx z => [z]
  | .nopZp64 z => [z]
  | .adcZp z => [z]
  | .rorZp z => [z]
  | .rraZp z => [z]
  | .pla => []
  | .adcImm v => [v]
  | .rorAcc => []
  | .arrImm v => [v]
  | .jmpInd lo hi => [lo, hi]
  | .adcAbs lo hi => [lo, hi]
  | .rorAbs lo hi => [lo, hi]
  | .rraAbs lo hi => [lo, hi]
  | .bvs off => [off]
  | .adcIzy z => [z]
  | .jam72 => []
  | .rraIzy z => [z]
  | .nopZpx74 z => [z]
  | .adcZpx z => [z]
  | .rorZpx z => [z]
  | .rraZpx z => [z]
  | .sei => []
  | .adcAby lo hi => [lo, hi]
  | .nop7A => []
  | .rraAby lo hi => [lo, hi]
  | .nopAbx7C lo hi => [lo, hi]
  | .adcAbx lo hi => [lo, hi]
  | .rorAbx lo hi => [lo, hi]
  | .rraAbx lo hi => [lo, hi]
  | .nopImm80 v => [v]
  | .staIzx z => [z]
  | .nopImm82 v => [v]
  | .saxIzx z => [z]
  | .styZp z => [z]
  | .staZp z => [z]
  | .stxZp z => [z]
  | .saxZp z => [z]
  | .dey => []
  | .nopImm89 v => [v]
  | .txa => []
  | .aneImm v => [v]
  | .styAbs lo hi => [lo, hi]
  | .staAbs lo hi => [lo, hi]
  | .stxAbs lo hi => [lo, hi]
  | .saxAbs lo hi => [lo, hi]
  | .bcc off => [off]
  | .staIzy z => [z]
  | .jam92 => []
  | .shaIzy z => [z]
  | .styZpx z => [z]
  | .staZpx z => [z]
  | .stxZpy z => [z]
  | .saxZpy z => [z]
  | .tya => []
  | .staAby lo hi => [lo, hi]
  | .txs => []
  | .tasAby lo hi => [lo, hi]
  | .shyAbx lo hi => [lo, hi]
  | .staAbx lo hi => [lo, hi]
  | .shxAby lo hi => [lo, hi]
  | .shaAby lo hi => [lo, hi]
  | .ldyImm v => [v]
  | .ldaIzx z => [z]
  | .ldxImm v => [v]
  | .laxIzx z => [z]
  | .ldyZp z => [z]
  | .ldaZp z => [z]
  | .ldxZp z => [z]
  | .laxZp z => [z]
  | .tay => []
  | .ldaImm v => [v]
  | .tax => []
  | .lxaImm v => [v]
  | .ldyAbs lo hi => [lo, hi]
  | .ldaAbs lo hi => [lo, hi]
  | .ldxAbs lo hi => [lo, hi]
  | .laxAbs lo hi => [lo, hi]
  | .bcs off => [off]
  | .ldaIzy z => [z]
  | .jamB2 => []
  | .laxIzy z => [z]
  | .ldyZpx z => [z]
  | .ldaZpx z => [z]
  | .ldxZpy z => [z]
  | .laxZpy z => [z]
  | .clv => []
  | .ldaAby lo hi => [lo, hi]
  | .tsx => []
  | .lasAby lo hi => [lo, hi]
  | .ldyAbx lo hi => [lo, hi]
  | .ldaAbx lo hi => [lo, hi]
  | .ldxAby lo hi => [lo, hi]
  | .laxAby lo hi => [lo, hi]
  | .cpyImm v => [v]
  | .cmpIzx z => [z]
  | .nopImmC2 v => [v]
  | .dcpIzx z => [z]
  | .cpyZp z => [z]
  | .cmpZp z => [z]
  | .decZp z => [z]
  | .dcpZp z => [z]
  | .iny => []
  | .cmpImm v => [v]
  | .dex => []
  | .sbxImm v => [v]
  | .cpyAbs lo hi => [lo, hi]
  | .cmpAbs lo hi => [lo, hi]
  | .decAbs lo hi => [lo, hi]
  | .dcpAbs lo hi => [lo, hi]
  | .bne off => [off]
  | .cmpIzy z => [z]
  | .jamD2 => []
  | .dcpIzy z => [z]
  | .nopZpxD4 z => [z]
  | .cmpZpx z => [z]
  | .decZpx z => [z]
  | .dcpZpx z => [z]
  | .cld => []
  | .cmpAby lo hi => [lo, hi]
  | .nopDA => []
  | .dcpAby lo hi => [lo, hi]
  | .nopAbxDC lo hi => [lo, hi]
  | .cmpAbx lo hi => [lo, hi]
  | .decAbx lo hi => [lo, hi]
  | .dcpAbx lo hi => [lo, hi]
  | .cpxImm v => [v]
  | .sbcIzx z => [z]
  | .nopImmE2 v => [v]
  | .iscIzx z => [z]
  | .cpxZp z => [z]
  | .sbcZp z => [z]
  | .incZp z => [z]
  | .iscZp z => [z]
  | .inx => []
  | .sbcImm v => [v]
  | .nop => []
  | .usbcImm v => [v]
  | .cpxAbs lo hi => [lo, hi]
  | .sbcAbs lo hi => [lo, hi]
  | .incAbs lo hi => [lo, hi]
  | .iscAbs lo hi => [lo, hi]
  | .beq off => [off]
  | .sbcIzy z => [z]
  | .jamF2 => []
  | .iscIzy z => [z]
  | .nopZpxF4 z => [z]
  | .sbcZpx z => [z]
  | .incZpx z => [z]
  | .iscZpx z => [z]
  | .sed => []
  | .sbcAby lo hi => [lo, hi]
  | .nopFA => []
  | .iscAby lo hi => [lo, hi]
  | .nopAbxFC lo hi => [lo, hi]
  | .sbcAbx lo hi => [lo, hi]
  | .incAbx lo hi => [lo, hi]
  | .iscAbx lo hi => [lo, hi]

/-- The 105 unofficial opcodes are the rows the table marks `"official": false` (R82, R83). -/
def Instr.official : Instr → Bool
  | .brk => true
  | .oraIzx _ => true
  | .jam02 => false
  | .sloIzx _ => false
  | .nopZp04 _ => false
  | .oraZp _ => true
  | .aslZp _ => true
  | .sloZp _ => false
  | .php => true
  | .oraImm _ => true
  | .aslAcc => true
  | .ancImm0B _ => false
  | .nopAbs _ _ => false
  | .oraAbs _ _ => true
  | .aslAbs _ _ => true
  | .sloAbs _ _ => false
  | .bpl _ => true
  | .oraIzy _ => true
  | .jam12 => false
  | .sloIzy _ => false
  | .nopZpx14 _ => false
  | .oraZpx _ => true
  | .aslZpx _ => true
  | .sloZpx _ => false
  | .clc => true
  | .oraAby _ _ => true
  | .nop1A => false
  | .sloAby _ _ => false
  | .nopAbx1C _ _ => false
  | .oraAbx _ _ => true
  | .aslAbx _ _ => true
  | .sloAbx _ _ => false
  | .jsr _ _ => true
  | .andIzx _ => true
  | .jam22 => false
  | .rlaIzx _ => false
  | .bitZp _ => true
  | .andZp _ => true
  | .rolZp _ => true
  | .rlaZp _ => false
  | .plp => true
  | .andImm _ => true
  | .rolAcc => true
  | .ancImm2B _ => false
  | .bitAbs _ _ => true
  | .andAbs _ _ => true
  | .rolAbs _ _ => true
  | .rlaAbs _ _ => false
  | .bmi _ => true
  | .andIzy _ => true
  | .jam32 => false
  | .rlaIzy _ => false
  | .nopZpx34 _ => false
  | .andZpx _ => true
  | .rolZpx _ => true
  | .rlaZpx _ => false
  | .sec => true
  | .andAby _ _ => true
  | .nop3A => false
  | .rlaAby _ _ => false
  | .nopAbx3C _ _ => false
  | .andAbx _ _ => true
  | .rolAbx _ _ => true
  | .rlaAbx _ _ => false
  | .rti => true
  | .eorIzx _ => true
  | .jam42 => false
  | .sreIzx _ => false
  | .nopZp44 _ => false
  | .eorZp _ => true
  | .lsrZp _ => true
  | .sreZp _ => false
  | .pha => true
  | .eorImm _ => true
  | .lsrAcc => true
  | .alrImm _ => false
  | .jmpAbs _ _ => true
  | .eorAbs _ _ => true
  | .lsrAbs _ _ => true
  | .sreAbs _ _ => false
  | .bvc _ => true
  | .eorIzy _ => true
  | .jam52 => false
  | .sreIzy _ => false
  | .nopZpx54 _ => false
  | .eorZpx _ => true
  | .lsrZpx _ => true
  | .sreZpx _ => false
  | .cli => true
  | .eorAby _ _ => true
  | .nop5A => false
  | .sreAby _ _ => false
  | .nopAbx5C _ _ => false
  | .eorAbx _ _ => true
  | .lsrAbx _ _ => true
  | .sreAbx _ _ => false
  | .rts => true
  | .adcIzx _ => true
  | .jam62 => false
  | .rraIzx _ => false
  | .nopZp64 _ => false
  | .adcZp _ => true
  | .rorZp _ => true
  | .rraZp _ => false
  | .pla => true
  | .adcImm _ => true
  | .rorAcc => true
  | .arrImm _ => false
  | .jmpInd _ _ => true
  | .adcAbs _ _ => true
  | .rorAbs _ _ => true
  | .rraAbs _ _ => false
  | .bvs _ => true
  | .adcIzy _ => true
  | .jam72 => false
  | .rraIzy _ => false
  | .nopZpx74 _ => false
  | .adcZpx _ => true
  | .rorZpx _ => true
  | .rraZpx _ => false
  | .sei => true
  | .adcAby _ _ => true
  | .nop7A => false
  | .rraAby _ _ => false
  | .nopAbx7C _ _ => false
  | .adcAbx _ _ => true
  | .rorAbx _ _ => true
  | .rraAbx _ _ => false
  | .nopImm80 _ => false
  | .staIzx _ => true
  | .nopImm82 _ => false
  | .saxIzx _ => false
  | .styZp _ => true
  | .staZp _ => true
  | .stxZp _ => true
  | .saxZp _ => false
  | .dey => true
  | .nopImm89 _ => false
  | .txa => true
  | .aneImm _ => false
  | .styAbs _ _ => true
  | .staAbs _ _ => true
  | .stxAbs _ _ => true
  | .saxAbs _ _ => false
  | .bcc _ => true
  | .staIzy _ => true
  | .jam92 => false
  | .shaIzy _ => false
  | .styZpx _ => true
  | .staZpx _ => true
  | .stxZpy _ => true
  | .saxZpy _ => false
  | .tya => true
  | .staAby _ _ => true
  | .txs => true
  | .tasAby _ _ => false
  | .shyAbx _ _ => false
  | .staAbx _ _ => true
  | .shxAby _ _ => false
  | .shaAby _ _ => false
  | .ldyImm _ => true
  | .ldaIzx _ => true
  | .ldxImm _ => true
  | .laxIzx _ => false
  | .ldyZp _ => true
  | .ldaZp _ => true
  | .ldxZp _ => true
  | .laxZp _ => false
  | .tay => true
  | .ldaImm _ => true
  | .tax => true
  | .lxaImm _ => false
  | .ldyAbs _ _ => true
  | .ldaAbs _ _ => true
  | .ldxAbs _ _ => true
  | .laxAbs _ _ => false
  | .bcs _ => true
  | .ldaIzy _ => true
  | .jamB2 => false
  | .laxIzy _ => false
  | .ldyZpx _ => true
  | .ldaZpx _ => true
  | .ldxZpy _ => true
  | .laxZpy _ => false
  | .clv => true
  | .ldaAby _ _ => true
  | .tsx => true
  | .lasAby _ _ => false
  | .ldyAbx _ _ => true
  | .ldaAbx _ _ => true
  | .ldxAby _ _ => true
  | .laxAby _ _ => false
  | .cpyImm _ => true
  | .cmpIzx _ => true
  | .nopImmC2 _ => false
  | .dcpIzx _ => false
  | .cpyZp _ => true
  | .cmpZp _ => true
  | .decZp _ => true
  | .dcpZp _ => false
  | .iny => true
  | .cmpImm _ => true
  | .dex => true
  | .sbxImm _ => false
  | .cpyAbs _ _ => true
  | .cmpAbs _ _ => true
  | .decAbs _ _ => true
  | .dcpAbs _ _ => false
  | .bne _ => true
  | .cmpIzy _ => true
  | .jamD2 => false
  | .dcpIzy _ => false
  | .nopZpxD4 _ => false
  | .cmpZpx _ => true
  | .decZpx _ => true
  | .dcpZpx _ => false
  | .cld => true
  | .cmpAby _ _ => true
  | .nopDA => false
  | .dcpAby _ _ => false
  | .nopAbxDC _ _ => false
  | .cmpAbx _ _ => true
  | .decAbx _ _ => true
  | .dcpAbx _ _ => false
  | .cpxImm _ => true
  | .sbcIzx _ => true
  | .nopImmE2 _ => false
  | .iscIzx _ => false
  | .cpxZp _ => true
  | .sbcZp _ => true
  | .incZp _ => true
  | .iscZp _ => false
  | .inx => true
  | .sbcImm _ => true
  | .nop => true
  | .usbcImm _ => false
  | .cpxAbs _ _ => true
  | .sbcAbs _ _ => true
  | .incAbs _ _ => true
  | .iscAbs _ _ => false
  | .beq _ => true
  | .sbcIzy _ => true
  | .jamF2 => false
  | .iscIzy _ => false
  | .nopZpxF4 _ => false
  | .sbcZpx _ => true
  | .incZpx _ => true
  | .iscZpx _ => false
  | .sed => true
  | .sbcAby _ _ => true
  | .nopFA => false
  | .iscAby _ _ => false
  | .nopAbxFC _ _ => false
  | .sbcAbx _ _ => true
  | .incAbx _ _ => true
  | .iscAbx _ _ => false

/-- The 77 mnemonics of the opcode table (R80, R86). -/
inductive Mnemonic where
  | brk | ora | jam | slo | nop | asl | php | anc | bpl | clc | jsr
  | and | rla | bit | rol | plp | bmi | sec | rti | eor | sre | lsr
  | pha | alr | jmp | bvc | cli | rts | adc | rra | ror | pla | arr
  | bvs | sei | sta | sax | sty | stx | dey | txa | ane | bcc | sha
  | tya | txs | tas | shy | shx | ldy | lda | ldx | lax | tay | tax
  | lxa | bcs | clv | tsx | las | cpy | cmp | dcp | dec | iny | dex
  | sbx | bne | cld | cpx | sbc | isc | inc | inx | usbc | beq | sed
deriving DecidableEq, Repr

/-- The mnemonic of an instruction (R80). -/
def Instr.mnemonic : Instr → Mnemonic
  | .brk => .brk
  | .oraIzx _ => .ora
  | .jam02 => .jam
  | .sloIzx _ => .slo
  | .nopZp04 _ => .nop
  | .oraZp _ => .ora
  | .aslZp _ => .asl
  | .sloZp _ => .slo
  | .php => .php
  | .oraImm _ => .ora
  | .aslAcc => .asl
  | .ancImm0B _ => .anc
  | .nopAbs _ _ => .nop
  | .oraAbs _ _ => .ora
  | .aslAbs _ _ => .asl
  | .sloAbs _ _ => .slo
  | .bpl _ => .bpl
  | .oraIzy _ => .ora
  | .jam12 => .jam
  | .sloIzy _ => .slo
  | .nopZpx14 _ => .nop
  | .oraZpx _ => .ora
  | .aslZpx _ => .asl
  | .sloZpx _ => .slo
  | .clc => .clc
  | .oraAby _ _ => .ora
  | .nop1A => .nop
  | .sloAby _ _ => .slo
  | .nopAbx1C _ _ => .nop
  | .oraAbx _ _ => .ora
  | .aslAbx _ _ => .asl
  | .sloAbx _ _ => .slo
  | .jsr _ _ => .jsr
  | .andIzx _ => .and
  | .jam22 => .jam
  | .rlaIzx _ => .rla
  | .bitZp _ => .bit
  | .andZp _ => .and
  | .rolZp _ => .rol
  | .rlaZp _ => .rla
  | .plp => .plp
  | .andImm _ => .and
  | .rolAcc => .rol
  | .ancImm2B _ => .anc
  | .bitAbs _ _ => .bit
  | .andAbs _ _ => .and
  | .rolAbs _ _ => .rol
  | .rlaAbs _ _ => .rla
  | .bmi _ => .bmi
  | .andIzy _ => .and
  | .jam32 => .jam
  | .rlaIzy _ => .rla
  | .nopZpx34 _ => .nop
  | .andZpx _ => .and
  | .rolZpx _ => .rol
  | .rlaZpx _ => .rla
  | .sec => .sec
  | .andAby _ _ => .and
  | .nop3A => .nop
  | .rlaAby _ _ => .rla
  | .nopAbx3C _ _ => .nop
  | .andAbx _ _ => .and
  | .rolAbx _ _ => .rol
  | .rlaAbx _ _ => .rla
  | .rti => .rti
  | .eorIzx _ => .eor
  | .jam42 => .jam
  | .sreIzx _ => .sre
  | .nopZp44 _ => .nop
  | .eorZp _ => .eor
  | .lsrZp _ => .lsr
  | .sreZp _ => .sre
  | .pha => .pha
  | .eorImm _ => .eor
  | .lsrAcc => .lsr
  | .alrImm _ => .alr
  | .jmpAbs _ _ => .jmp
  | .eorAbs _ _ => .eor
  | .lsrAbs _ _ => .lsr
  | .sreAbs _ _ => .sre
  | .bvc _ => .bvc
  | .eorIzy _ => .eor
  | .jam52 => .jam
  | .sreIzy _ => .sre
  | .nopZpx54 _ => .nop
  | .eorZpx _ => .eor
  | .lsrZpx _ => .lsr
  | .sreZpx _ => .sre
  | .cli => .cli
  | .eorAby _ _ => .eor
  | .nop5A => .nop
  | .sreAby _ _ => .sre
  | .nopAbx5C _ _ => .nop
  | .eorAbx _ _ => .eor
  | .lsrAbx _ _ => .lsr
  | .sreAbx _ _ => .sre
  | .rts => .rts
  | .adcIzx _ => .adc
  | .jam62 => .jam
  | .rraIzx _ => .rra
  | .nopZp64 _ => .nop
  | .adcZp _ => .adc
  | .rorZp _ => .ror
  | .rraZp _ => .rra
  | .pla => .pla
  | .adcImm _ => .adc
  | .rorAcc => .ror
  | .arrImm _ => .arr
  | .jmpInd _ _ => .jmp
  | .adcAbs _ _ => .adc
  | .rorAbs _ _ => .ror
  | .rraAbs _ _ => .rra
  | .bvs _ => .bvs
  | .adcIzy _ => .adc
  | .jam72 => .jam
  | .rraIzy _ => .rra
  | .nopZpx74 _ => .nop
  | .adcZpx _ => .adc
  | .rorZpx _ => .ror
  | .rraZpx _ => .rra
  | .sei => .sei
  | .adcAby _ _ => .adc
  | .nop7A => .nop
  | .rraAby _ _ => .rra
  | .nopAbx7C _ _ => .nop
  | .adcAbx _ _ => .adc
  | .rorAbx _ _ => .ror
  | .rraAbx _ _ => .rra
  | .nopImm80 _ => .nop
  | .staIzx _ => .sta
  | .nopImm82 _ => .nop
  | .saxIzx _ => .sax
  | .styZp _ => .sty
  | .staZp _ => .sta
  | .stxZp _ => .stx
  | .saxZp _ => .sax
  | .dey => .dey
  | .nopImm89 _ => .nop
  | .txa => .txa
  | .aneImm _ => .ane
  | .styAbs _ _ => .sty
  | .staAbs _ _ => .sta
  | .stxAbs _ _ => .stx
  | .saxAbs _ _ => .sax
  | .bcc _ => .bcc
  | .staIzy _ => .sta
  | .jam92 => .jam
  | .shaIzy _ => .sha
  | .styZpx _ => .sty
  | .staZpx _ => .sta
  | .stxZpy _ => .stx
  | .saxZpy _ => .sax
  | .tya => .tya
  | .staAby _ _ => .sta
  | .txs => .txs
  | .tasAby _ _ => .tas
  | .shyAbx _ _ => .shy
  | .staAbx _ _ => .sta
  | .shxAby _ _ => .shx
  | .shaAby _ _ => .sha
  | .ldyImm _ => .ldy
  | .ldaIzx _ => .lda
  | .ldxImm _ => .ldx
  | .laxIzx _ => .lax
  | .ldyZp _ => .ldy
  | .ldaZp _ => .lda
  | .ldxZp _ => .ldx
  | .laxZp _ => .lax
  | .tay => .tay
  | .ldaImm _ => .lda
  | .tax => .tax
  | .lxaImm _ => .lxa
  | .ldyAbs _ _ => .ldy
  | .ldaAbs _ _ => .lda
  | .ldxAbs _ _ => .ldx
  | .laxAbs _ _ => .lax
  | .bcs _ => .bcs
  | .ldaIzy _ => .lda
  | .jamB2 => .jam
  | .laxIzy _ => .lax
  | .ldyZpx _ => .ldy
  | .ldaZpx _ => .lda
  | .ldxZpy _ => .ldx
  | .laxZpy _ => .lax
  | .clv => .clv
  | .ldaAby _ _ => .lda
  | .tsx => .tsx
  | .lasAby _ _ => .las
  | .ldyAbx _ _ => .ldy
  | .ldaAbx _ _ => .lda
  | .ldxAby _ _ => .ldx
  | .laxAby _ _ => .lax
  | .cpyImm _ => .cpy
  | .cmpIzx _ => .cmp
  | .nopImmC2 _ => .nop
  | .dcpIzx _ => .dcp
  | .cpyZp _ => .cpy
  | .cmpZp _ => .cmp
  | .decZp _ => .dec
  | .dcpZp _ => .dcp
  | .iny => .iny
  | .cmpImm _ => .cmp
  | .dex => .dex
  | .sbxImm _ => .sbx
  | .cpyAbs _ _ => .cpy
  | .cmpAbs _ _ => .cmp
  | .decAbs _ _ => .dec
  | .dcpAbs _ _ => .dcp
  | .bne _ => .bne
  | .cmpIzy _ => .cmp
  | .jamD2 => .jam
  | .dcpIzy _ => .dcp
  | .nopZpxD4 _ => .nop
  | .cmpZpx _ => .cmp
  | .decZpx _ => .dec
  | .dcpZpx _ => .dcp
  | .cld => .cld
  | .cmpAby _ _ => .cmp
  | .nopDA => .nop
  | .dcpAby _ _ => .dcp
  | .nopAbxDC _ _ => .nop
  | .cmpAbx _ _ => .cmp
  | .decAbx _ _ => .dec
  | .dcpAbx _ _ => .dcp
  | .cpxImm _ => .cpx
  | .sbcIzx _ => .sbc
  | .nopImmE2 _ => .nop
  | .iscIzx _ => .isc
  | .cpxZp _ => .cpx
  | .sbcZp _ => .sbc
  | .incZp _ => .inc
  | .iscZp _ => .isc
  | .inx => .inx
  | .sbcImm _ => .sbc
  | .nop => .nop
  | .usbcImm _ => .usbc
  | .cpxAbs _ _ => .cpx
  | .sbcAbs _ _ => .sbc
  | .incAbs _ _ => .inc
  | .iscAbs _ _ => .isc
  | .beq _ => .beq
  | .sbcIzy _ => .sbc
  | .jamF2 => .jam
  | .iscIzy _ => .isc
  | .nopZpxF4 _ => .nop
  | .sbcZpx _ => .sbc
  | .incZpx _ => .inc
  | .iscZpx _ => .isc
  | .sed => .sed
  | .sbcAby _ _ => .sbc
  | .nopFA => .nop
  | .iscAby _ _ => .isc
  | .nopAbxFC _ _ => .nop
  | .sbcAbx _ _ => .sbc
  | .incAbx _ _ => .inc
  | .iscAbx _ _ => .isc

/-- The table's cycle count, without the cycle of a page cross or of a branch that is taken; a JAM fetches its opcode and
halts (R79, R149). -/
def Instr.cycles : Instr → Nat
  | .brk => 7
  | .oraIzx _ => 6
  | .jam02 => 1
  | .sloIzx _ => 8
  | .nopZp04 _ => 3
  | .oraZp _ => 3
  | .aslZp _ => 5
  | .sloZp _ => 5
  | .php => 3
  | .oraImm _ => 2
  | .aslAcc => 2
  | .ancImm0B _ => 2
  | .nopAbs _ _ => 4
  | .oraAbs _ _ => 4
  | .aslAbs _ _ => 6
  | .sloAbs _ _ => 6
  | .bpl _ => 2
  | .oraIzy _ => 5
  | .jam12 => 1
  | .sloIzy _ => 8
  | .nopZpx14 _ => 4
  | .oraZpx _ => 4
  | .aslZpx _ => 6
  | .sloZpx _ => 6
  | .clc => 2
  | .oraAby _ _ => 4
  | .nop1A => 2
  | .sloAby _ _ => 7
  | .nopAbx1C _ _ => 4
  | .oraAbx _ _ => 4
  | .aslAbx _ _ => 7
  | .sloAbx _ _ => 7
  | .jsr _ _ => 6
  | .andIzx _ => 6
  | .jam22 => 1
  | .rlaIzx _ => 8
  | .bitZp _ => 3
  | .andZp _ => 3
  | .rolZp _ => 5
  | .rlaZp _ => 5
  | .plp => 4
  | .andImm _ => 2
  | .rolAcc => 2
  | .ancImm2B _ => 2
  | .bitAbs _ _ => 4
  | .andAbs _ _ => 4
  | .rolAbs _ _ => 6
  | .rlaAbs _ _ => 6
  | .bmi _ => 2
  | .andIzy _ => 5
  | .jam32 => 1
  | .rlaIzy _ => 8
  | .nopZpx34 _ => 4
  | .andZpx _ => 4
  | .rolZpx _ => 6
  | .rlaZpx _ => 6
  | .sec => 2
  | .andAby _ _ => 4
  | .nop3A => 2
  | .rlaAby _ _ => 7
  | .nopAbx3C _ _ => 4
  | .andAbx _ _ => 4
  | .rolAbx _ _ => 7
  | .rlaAbx _ _ => 7
  | .rti => 6
  | .eorIzx _ => 6
  | .jam42 => 1
  | .sreIzx _ => 8
  | .nopZp44 _ => 3
  | .eorZp _ => 3
  | .lsrZp _ => 5
  | .sreZp _ => 5
  | .pha => 3
  | .eorImm _ => 2
  | .lsrAcc => 2
  | .alrImm _ => 2
  | .jmpAbs _ _ => 3
  | .eorAbs _ _ => 4
  | .lsrAbs _ _ => 6
  | .sreAbs _ _ => 6
  | .bvc _ => 2
  | .eorIzy _ => 5
  | .jam52 => 1
  | .sreIzy _ => 8
  | .nopZpx54 _ => 4
  | .eorZpx _ => 4
  | .lsrZpx _ => 6
  | .sreZpx _ => 6
  | .cli => 2
  | .eorAby _ _ => 4
  | .nop5A => 2
  | .sreAby _ _ => 7
  | .nopAbx5C _ _ => 4
  | .eorAbx _ _ => 4
  | .lsrAbx _ _ => 7
  | .sreAbx _ _ => 7
  | .rts => 6
  | .adcIzx _ => 6
  | .jam62 => 1
  | .rraIzx _ => 8
  | .nopZp64 _ => 3
  | .adcZp _ => 3
  | .rorZp _ => 5
  | .rraZp _ => 5
  | .pla => 4
  | .adcImm _ => 2
  | .rorAcc => 2
  | .arrImm _ => 2
  | .jmpInd _ _ => 5
  | .adcAbs _ _ => 4
  | .rorAbs _ _ => 6
  | .rraAbs _ _ => 6
  | .bvs _ => 2
  | .adcIzy _ => 5
  | .jam72 => 1
  | .rraIzy _ => 8
  | .nopZpx74 _ => 4
  | .adcZpx _ => 4
  | .rorZpx _ => 6
  | .rraZpx _ => 6
  | .sei => 2
  | .adcAby _ _ => 4
  | .nop7A => 2
  | .rraAby _ _ => 7
  | .nopAbx7C _ _ => 4
  | .adcAbx _ _ => 4
  | .rorAbx _ _ => 7
  | .rraAbx _ _ => 7
  | .nopImm80 _ => 2
  | .staIzx _ => 6
  | .nopImm82 _ => 2
  | .saxIzx _ => 6
  | .styZp _ => 3
  | .staZp _ => 3
  | .stxZp _ => 3
  | .saxZp _ => 3
  | .dey => 2
  | .nopImm89 _ => 2
  | .txa => 2
  | .aneImm _ => 2
  | .styAbs _ _ => 4
  | .staAbs _ _ => 4
  | .stxAbs _ _ => 4
  | .saxAbs _ _ => 4
  | .bcc _ => 2
  | .staIzy _ => 6
  | .jam92 => 1
  | .shaIzy _ => 6
  | .styZpx _ => 4
  | .staZpx _ => 4
  | .stxZpy _ => 4
  | .saxZpy _ => 4
  | .tya => 2
  | .staAby _ _ => 5
  | .txs => 2
  | .tasAby _ _ => 5
  | .shyAbx _ _ => 5
  | .staAbx _ _ => 5
  | .shxAby _ _ => 5
  | .shaAby _ _ => 5
  | .ldyImm _ => 2
  | .ldaIzx _ => 6
  | .ldxImm _ => 2
  | .laxIzx _ => 6
  | .ldyZp _ => 3
  | .ldaZp _ => 3
  | .ldxZp _ => 3
  | .laxZp _ => 3
  | .tay => 2
  | .ldaImm _ => 2
  | .tax => 2
  | .lxaImm _ => 2
  | .ldyAbs _ _ => 4
  | .ldaAbs _ _ => 4
  | .ldxAbs _ _ => 4
  | .laxAbs _ _ => 4
  | .bcs _ => 2
  | .ldaIzy _ => 5
  | .jamB2 => 1
  | .laxIzy _ => 5
  | .ldyZpx _ => 4
  | .ldaZpx _ => 4
  | .ldxZpy _ => 4
  | .laxZpy _ => 4
  | .clv => 2
  | .ldaAby _ _ => 4
  | .tsx => 2
  | .lasAby _ _ => 4
  | .ldyAbx _ _ => 4
  | .ldaAbx _ _ => 4
  | .ldxAby _ _ => 4
  | .laxAby _ _ => 4
  | .cpyImm _ => 2
  | .cmpIzx _ => 6
  | .nopImmC2 _ => 2
  | .dcpIzx _ => 8
  | .cpyZp _ => 3
  | .cmpZp _ => 3
  | .decZp _ => 5
  | .dcpZp _ => 5
  | .iny => 2
  | .cmpImm _ => 2
  | .dex => 2
  | .sbxImm _ => 2
  | .cpyAbs _ _ => 4
  | .cmpAbs _ _ => 4
  | .decAbs _ _ => 6
  | .dcpAbs _ _ => 6
  | .bne _ => 2
  | .cmpIzy _ => 5
  | .jamD2 => 1
  | .dcpIzy _ => 8
  | .nopZpxD4 _ => 4
  | .cmpZpx _ => 4
  | .decZpx _ => 6
  | .dcpZpx _ => 6
  | .cld => 2
  | .cmpAby _ _ => 4
  | .nopDA => 2
  | .dcpAby _ _ => 7
  | .nopAbxDC _ _ => 4
  | .cmpAbx _ _ => 4
  | .decAbx _ _ => 7
  | .dcpAbx _ _ => 7
  | .cpxImm _ => 2
  | .sbcIzx _ => 6
  | .nopImmE2 _ => 2
  | .iscIzx _ => 8
  | .cpxZp _ => 3
  | .sbcZp _ => 3
  | .incZp _ => 5
  | .iscZp _ => 5
  | .inx => 2
  | .sbcImm _ => 2
  | .nop => 2
  | .usbcImm _ => 2
  | .cpxAbs _ _ => 4
  | .sbcAbs _ _ => 4
  | .incAbs _ _ => 6
  | .iscAbs _ _ => 6
  | .beq _ => 2
  | .sbcIzy _ => 5
  | .jamF2 => 1
  | .iscIzy _ => 8
  | .nopZpxF4 _ => 4
  | .sbcZpx _ => 4
  | .incZpx _ => 6
  | .iscZpx _ => 6
  | .sed => 2
  | .sbcAby _ _ => 4
  | .nopFA => 2
  | .iscAby _ _ => 7
  | .nopAbxFC _ _ => 4
  | .sbcAbx _ _ => 4
  | .incAbx _ _ => 7
  | .iscAbx _ _ => 7

/-- Whether a page cross adds a cycle: the table's `page_cross_extra` (R76, R79). -/
def Instr.crossExtra : Instr → Bool
  | .brk => false
  | .oraIzx _ => false
  | .jam02 => false
  | .sloIzx _ => false
  | .nopZp04 _ => false
  | .oraZp _ => false
  | .aslZp _ => false
  | .sloZp _ => false
  | .php => false
  | .oraImm _ => false
  | .aslAcc => false
  | .ancImm0B _ => false
  | .nopAbs _ _ => false
  | .oraAbs _ _ => false
  | .aslAbs _ _ => false
  | .sloAbs _ _ => false
  | .bpl _ => false
  | .oraIzy _ => true
  | .jam12 => false
  | .sloIzy _ => false
  | .nopZpx14 _ => false
  | .oraZpx _ => false
  | .aslZpx _ => false
  | .sloZpx _ => false
  | .clc => false
  | .oraAby _ _ => true
  | .nop1A => false
  | .sloAby _ _ => false
  | .nopAbx1C _ _ => true
  | .oraAbx _ _ => true
  | .aslAbx _ _ => false
  | .sloAbx _ _ => false
  | .jsr _ _ => false
  | .andIzx _ => false
  | .jam22 => false
  | .rlaIzx _ => false
  | .bitZp _ => false
  | .andZp _ => false
  | .rolZp _ => false
  | .rlaZp _ => false
  | .plp => false
  | .andImm _ => false
  | .rolAcc => false
  | .ancImm2B _ => false
  | .bitAbs _ _ => false
  | .andAbs _ _ => false
  | .rolAbs _ _ => false
  | .rlaAbs _ _ => false
  | .bmi _ => false
  | .andIzy _ => true
  | .jam32 => false
  | .rlaIzy _ => false
  | .nopZpx34 _ => false
  | .andZpx _ => false
  | .rolZpx _ => false
  | .rlaZpx _ => false
  | .sec => false
  | .andAby _ _ => true
  | .nop3A => false
  | .rlaAby _ _ => false
  | .nopAbx3C _ _ => true
  | .andAbx _ _ => true
  | .rolAbx _ _ => false
  | .rlaAbx _ _ => false
  | .rti => false
  | .eorIzx _ => false
  | .jam42 => false
  | .sreIzx _ => false
  | .nopZp44 _ => false
  | .eorZp _ => false
  | .lsrZp _ => false
  | .sreZp _ => false
  | .pha => false
  | .eorImm _ => false
  | .lsrAcc => false
  | .alrImm _ => false
  | .jmpAbs _ _ => false
  | .eorAbs _ _ => false
  | .lsrAbs _ _ => false
  | .sreAbs _ _ => false
  | .bvc _ => false
  | .eorIzy _ => true
  | .jam52 => false
  | .sreIzy _ => false
  | .nopZpx54 _ => false
  | .eorZpx _ => false
  | .lsrZpx _ => false
  | .sreZpx _ => false
  | .cli => false
  | .eorAby _ _ => true
  | .nop5A => false
  | .sreAby _ _ => false
  | .nopAbx5C _ _ => true
  | .eorAbx _ _ => true
  | .lsrAbx _ _ => false
  | .sreAbx _ _ => false
  | .rts => false
  | .adcIzx _ => false
  | .jam62 => false
  | .rraIzx _ => false
  | .nopZp64 _ => false
  | .adcZp _ => false
  | .rorZp _ => false
  | .rraZp _ => false
  | .pla => false
  | .adcImm _ => false
  | .rorAcc => false
  | .arrImm _ => false
  | .jmpInd _ _ => false
  | .adcAbs _ _ => false
  | .rorAbs _ _ => false
  | .rraAbs _ _ => false
  | .bvs _ => false
  | .adcIzy _ => true
  | .jam72 => false
  | .rraIzy _ => false
  | .nopZpx74 _ => false
  | .adcZpx _ => false
  | .rorZpx _ => false
  | .rraZpx _ => false
  | .sei => false
  | .adcAby _ _ => true
  | .nop7A => false
  | .rraAby _ _ => false
  | .nopAbx7C _ _ => true
  | .adcAbx _ _ => true
  | .rorAbx _ _ => false
  | .rraAbx _ _ => false
  | .nopImm80 _ => false
  | .staIzx _ => false
  | .nopImm82 _ => false
  | .saxIzx _ => false
  | .styZp _ => false
  | .staZp _ => false
  | .stxZp _ => false
  | .saxZp _ => false
  | .dey => false
  | .nopImm89 _ => false
  | .txa => false
  | .aneImm _ => false
  | .styAbs _ _ => false
  | .staAbs _ _ => false
  | .stxAbs _ _ => false
  | .saxAbs _ _ => false
  | .bcc _ => false
  | .staIzy _ => false
  | .jam92 => false
  | .shaIzy _ => false
  | .styZpx _ => false
  | .staZpx _ => false
  | .stxZpy _ => false
  | .saxZpy _ => false
  | .tya => false
  | .staAby _ _ => false
  | .txs => false
  | .tasAby _ _ => false
  | .shyAbx _ _ => false
  | .staAbx _ _ => false
  | .shxAby _ _ => false
  | .shaAby _ _ => false
  | .ldyImm _ => false
  | .ldaIzx _ => false
  | .ldxImm _ => false
  | .laxIzx _ => false
  | .ldyZp _ => false
  | .ldaZp _ => false
  | .ldxZp _ => false
  | .laxZp _ => false
  | .tay => false
  | .ldaImm _ => false
  | .tax => false
  | .lxaImm _ => false
  | .ldyAbs _ _ => false
  | .ldaAbs _ _ => false
  | .ldxAbs _ _ => false
  | .laxAbs _ _ => false
  | .bcs _ => false
  | .ldaIzy _ => true
  | .jamB2 => false
  | .laxIzy _ => true
  | .ldyZpx _ => false
  | .ldaZpx _ => false
  | .ldxZpy _ => false
  | .laxZpy _ => false
  | .clv => false
  | .ldaAby _ _ => true
  | .tsx => false
  | .lasAby _ _ => true
  | .ldyAbx _ _ => true
  | .ldaAbx _ _ => true
  | .ldxAby _ _ => true
  | .laxAby _ _ => true
  | .cpyImm _ => false
  | .cmpIzx _ => false
  | .nopImmC2 _ => false
  | .dcpIzx _ => false
  | .cpyZp _ => false
  | .cmpZp _ => false
  | .decZp _ => false
  | .dcpZp _ => false
  | .iny => false
  | .cmpImm _ => false
  | .dex => false
  | .sbxImm _ => false
  | .cpyAbs _ _ => false
  | .cmpAbs _ _ => false
  | .decAbs _ _ => false
  | .dcpAbs _ _ => false
  | .bne _ => false
  | .cmpIzy _ => true
  | .jamD2 => false
  | .dcpIzy _ => false
  | .nopZpxD4 _ => false
  | .cmpZpx _ => false
  | .decZpx _ => false
  | .dcpZpx _ => false
  | .cld => false
  | .cmpAby _ _ => true
  | .nopDA => false
  | .dcpAby _ _ => false
  | .nopAbxDC _ _ => true
  | .cmpAbx _ _ => true
  | .decAbx _ _ => false
  | .dcpAbx _ _ => false
  | .cpxImm _ => false
  | .sbcIzx _ => false
  | .nopImmE2 _ => false
  | .iscIzx _ => false
  | .cpxZp _ => false
  | .sbcZp _ => false
  | .incZp _ => false
  | .iscZp _ => false
  | .inx => false
  | .sbcImm _ => false
  | .nop => false
  | .usbcImm _ => false
  | .cpxAbs _ _ => false
  | .sbcAbs _ _ => false
  | .incAbs _ _ => false
  | .iscAbs _ _ => false
  | .beq _ => false
  | .sbcIzy _ => true
  | .jamF2 => false
  | .iscIzy _ => false
  | .nopZpxF4 _ => false
  | .sbcZpx _ => false
  | .incZpx _ => false
  | .iscZpx _ => false
  | .sed => false
  | .sbcAby _ _ => true
  | .nopFA => false
  | .iscAby _ _ => false
  | .nopAbxFC _ _ => true
  | .sbcAbx _ _ => true
  | .incAbx _ _ => false
  | .iscAbx _ _ => false

/-- The length of an instruction in bytes (R66). -/
def Instr.length (i : Instr) : Nat := 1 + i.mode.operandBytes

/-- What the 16-byte header of an iNES image says (R206). -/
structure Header where
  prgUnits   : Nat     -- byte 4: PRG ROM, in units of 16 KiB
  chrUnits   : Nat     -- byte 5: CHR ROM, in units of 8 KiB; 0 means 8 KiB of CHR RAM
  mapper     : Nat     -- bytes 6 and 7: the mapper number
  vertical   : Bool    -- byte 6 bit 0: nametable mirroring, true = vertical
  battery    : Bool    -- byte 6 bit 1: battery-backed PRG RAM (recorded, no effect; R208)
  trainer    : Bool    -- byte 6 bit 2: a 512-byte trainer is present
  fourScreen : Bool    -- byte 6 bit 3: four-screen nametables
deriving DecidableEq, Repr

end Sys2Proof
end

