-- ==== Sys2Proof/Decode.lean ====
section
/-!
DEFINITION. The decoder and the encoder (R65, R66, R80). Every opcode byte decodes (R82), so the only bytes the decoder
rejects are none at all, or too few for the instruction's length; each rejection has a name.
-/

namespace Sys2Proof

/-- Why bytes were not decoded. -/
inductive DecodeError where
  | noBytes                    -- there is no opcode byte
  | truncated (opcode : Byte)  -- fewer bytes than the opcode's addressing mode needs (R66)
deriving DecidableEq, Repr

/-- An opcode's row: the instruction, given the two bytes that follow the opcode (a shorter one ignores the rest). -/
abbrev Row := Byte → Byte → Instr

/-- Row 0x of the opcode map of R80. -/
def opcodeRow0 : List Row :=
  [fun _ _ => .brk,
   fun b _ => .oraIzx b,
   fun _ _ => .jam02,
   fun b _ => .sloIzx b,
   fun b _ => .nopZp04 b,
   fun b _ => .oraZp b,
   fun b _ => .aslZp b,
   fun b _ => .sloZp b,
   fun _ _ => .php,
   fun b _ => .oraImm b,
   fun _ _ => .aslAcc,
   fun b _ => .ancImm0B b,
   fun lo hi => .nopAbs lo hi,
   fun lo hi => .oraAbs lo hi,
   fun lo hi => .aslAbs lo hi,
   fun lo hi => .sloAbs lo hi]

/-- Row 1x of the opcode map of R80. -/
def opcodeRow1 : List Row :=
  [fun b _ => .bpl b,
   fun b _ => .oraIzy b,
   fun _ _ => .jam12,
   fun b _ => .sloIzy b,
   fun b _ => .nopZpx14 b,
   fun b _ => .oraZpx b,
   fun b _ => .aslZpx b,
   fun b _ => .sloZpx b,
   fun _ _ => .clc,
   fun lo hi => .oraAby lo hi,
   fun _ _ => .nop1A,
   fun lo hi => .sloAby lo hi,
   fun lo hi => .nopAbx1C lo hi,
   fun lo hi => .oraAbx lo hi,
   fun lo hi => .aslAbx lo hi,
   fun lo hi => .sloAbx lo hi]

/-- Row 2x of the opcode map of R80. -/
def opcodeRow2 : List Row :=
  [fun lo hi => .jsr lo hi,
   fun b _ => .andIzx b,
   fun _ _ => .jam22,
   fun b _ => .rlaIzx b,
   fun b _ => .bitZp b,
   fun b _ => .andZp b,
   fun b _ => .rolZp b,
   fun b _ => .rlaZp b,
   fun _ _ => .plp,
   fun b _ => .andImm b,
   fun _ _ => .rolAcc,
   fun b _ => .ancImm2B b,
   fun lo hi => .bitAbs lo hi,
   fun lo hi => .andAbs lo hi,
   fun lo hi => .rolAbs lo hi,
   fun lo hi => .rlaAbs lo hi]

/-- Row 3x of the opcode map of R80. -/
def opcodeRow3 : List Row :=
  [fun b _ => .bmi b,
   fun b _ => .andIzy b,
   fun _ _ => .jam32,
   fun b _ => .rlaIzy b,
   fun b _ => .nopZpx34 b,
   fun b _ => .andZpx b,
   fun b _ => .rolZpx b,
   fun b _ => .rlaZpx b,
   fun _ _ => .sec,
   fun lo hi => .andAby lo hi,
   fun _ _ => .nop3A,
   fun lo hi => .rlaAby lo hi,
   fun lo hi => .nopAbx3C lo hi,
   fun lo hi => .andAbx lo hi,
   fun lo hi => .rolAbx lo hi,
   fun lo hi => .rlaAbx lo hi]

/-- Row 4x of the opcode map of R80. -/
def opcodeRow4 : List Row :=
  [fun _ _ => .rti,
   fun b _ => .eorIzx b,
   fun _ _ => .jam42,
   fun b _ => .sreIzx b,
   fun b _ => .nopZp44 b,
   fun b _ => .eorZp b,
   fun b _ => .lsrZp b,
   fun b _ => .sreZp b,
   fun _ _ => .pha,
   fun b _ => .eorImm b,
   fun _ _ => .lsrAcc,
   fun b _ => .alrImm b,
   fun lo hi => .jmpAbs lo hi,
   fun lo hi => .eorAbs lo hi,
   fun lo hi => .lsrAbs lo hi,
   fun lo hi => .sreAbs lo hi]

/-- Row 5x of the opcode map of R80. -/
def opcodeRow5 : List Row :=
  [fun b _ => .bvc b,
   fun b _ => .eorIzy b,
   fun _ _ => .jam52,
   fun b _ => .sreIzy b,
   fun b _ => .nopZpx54 b,
   fun b _ => .eorZpx b,
   fun b _ => .lsrZpx b,
   fun b _ => .sreZpx b,
   fun _ _ => .cli,
   fun lo hi => .eorAby lo hi,
   fun _ _ => .nop5A,
   fun lo hi => .sreAby lo hi,
   fun lo hi => .nopAbx5C lo hi,
   fun lo hi => .eorAbx lo hi,
   fun lo hi => .lsrAbx lo hi,
   fun lo hi => .sreAbx lo hi]

/-- Row 6x of the opcode map of R80. -/
def opcodeRow6 : List Row :=
  [fun _ _ => .rts,
   fun b _ => .adcIzx b,
   fun _ _ => .jam62,
   fun b _ => .rraIzx b,
   fun b _ => .nopZp64 b,
   fun b _ => .adcZp b,
   fun b _ => .rorZp b,
   fun b _ => .rraZp b,
   fun _ _ => .pla,
   fun b _ => .adcImm b,
   fun _ _ => .rorAcc,
   fun b _ => .arrImm b,
   fun lo hi => .jmpInd lo hi,
   fun lo hi => .adcAbs lo hi,
   fun lo hi => .rorAbs lo hi,
   fun lo hi => .rraAbs lo hi]

/-- Row 7x of the opcode map of R80. -/
def opcodeRow7 : List Row :=
  [fun b _ => .bvs b,
   fun b _ => .adcIzy b,
   fun _ _ => .jam72,
   fun b _ => .rraIzy b,
   fun b _ => .nopZpx74 b,
   fun b _ => .adcZpx b,
   fun b _ => .rorZpx b,
   fun b _ => .rraZpx b,
   fun _ _ => .sei,
   fun lo hi => .adcAby lo hi,
   fun _ _ => .nop7A,
   fun lo hi => .rraAby lo hi,
   fun lo hi => .nopAbx7C lo hi,
   fun lo hi => .adcAbx lo hi,
   fun lo hi => .rorAbx lo hi,
   fun lo hi => .rraAbx lo hi]

/-- Row 8x of the opcode map of R80. -/
def opcodeRow8 : List Row :=
  [fun b _ => .nopImm80 b,
   fun b _ => .staIzx b,
   fun b _ => .nopImm82 b,
   fun b _ => .saxIzx b,
   fun b _ => .styZp b,
   fun b _ => .staZp b,
   fun b _ => .stxZp b,
   fun b _ => .saxZp b,
   fun _ _ => .dey,
   fun b _ => .nopImm89 b,
   fun _ _ => .txa,
   fun b _ => .aneImm b,
   fun lo hi => .styAbs lo hi,
   fun lo hi => .staAbs lo hi,
   fun lo hi => .stxAbs lo hi,
   fun lo hi => .saxAbs lo hi]

/-- Row 9x of the opcode map of R80. -/
def opcodeRow9 : List Row :=
  [fun b _ => .bcc b,
   fun b _ => .staIzy b,
   fun _ _ => .jam92,
   fun b _ => .shaIzy b,
   fun b _ => .styZpx b,
   fun b _ => .staZpx b,
   fun b _ => .stxZpy b,
   fun b _ => .saxZpy b,
   fun _ _ => .tya,
   fun lo hi => .staAby lo hi,
   fun _ _ => .txs,
   fun lo hi => .tasAby lo hi,
   fun lo hi => .shyAbx lo hi,
   fun lo hi => .staAbx lo hi,
   fun lo hi => .shxAby lo hi,
   fun lo hi => .shaAby lo hi]

/-- Row Ax of the opcode map of R80. -/
def opcodeRowA : List Row :=
  [fun b _ => .ldyImm b,
   fun b _ => .ldaIzx b,
   fun b _ => .ldxImm b,
   fun b _ => .laxIzx b,
   fun b _ => .ldyZp b,
   fun b _ => .ldaZp b,
   fun b _ => .ldxZp b,
   fun b _ => .laxZp b,
   fun _ _ => .tay,
   fun b _ => .ldaImm b,
   fun _ _ => .tax,
   fun b _ => .lxaImm b,
   fun lo hi => .ldyAbs lo hi,
   fun lo hi => .ldaAbs lo hi,
   fun lo hi => .ldxAbs lo hi,
   fun lo hi => .laxAbs lo hi]

/-- Row Bx of the opcode map of R80. -/
def opcodeRowB : List Row :=
  [fun b _ => .bcs b,
   fun b _ => .ldaIzy b,
   fun _ _ => .jamB2,
   fun b _ => .laxIzy b,
   fun b _ => .ldyZpx b,
   fun b _ => .ldaZpx b,
   fun b _ => .ldxZpy b,
   fun b _ => .laxZpy b,
   fun _ _ => .clv,
   fun lo hi => .ldaAby lo hi,
   fun _ _ => .tsx,
   fun lo hi => .lasAby lo hi,
   fun lo hi => .ldyAbx lo hi,
   fun lo hi => .ldaAbx lo hi,
   fun lo hi => .ldxAby lo hi,
   fun lo hi => .laxAby lo hi]

/-- Row Cx of the opcode map of R80. -/
def opcodeRowC : List Row :=
  [fun b _ => .cpyImm b,
   fun b _ => .cmpIzx b,
   fun b _ => .nopImmC2 b,
   fun b _ => .dcpIzx b,
   fun b _ => .cpyZp b,
   fun b _ => .cmpZp b,
   fun b _ => .decZp b,
   fun b _ => .dcpZp b,
   fun _ _ => .iny,
   fun b _ => .cmpImm b,
   fun _ _ => .dex,
   fun b _ => .sbxImm b,
   fun lo hi => .cpyAbs lo hi,
   fun lo hi => .cmpAbs lo hi,
   fun lo hi => .decAbs lo hi,
   fun lo hi => .dcpAbs lo hi]

/-- Row Dx of the opcode map of R80. -/
def opcodeRowD : List Row :=
  [fun b _ => .bne b,
   fun b _ => .cmpIzy b,
   fun _ _ => .jamD2,
   fun b _ => .dcpIzy b,
   fun b _ => .nopZpxD4 b,
   fun b _ => .cmpZpx b,
   fun b _ => .decZpx b,
   fun b _ => .dcpZpx b,
   fun _ _ => .cld,
   fun lo hi => .cmpAby lo hi,
   fun _ _ => .nopDA,
   fun lo hi => .dcpAby lo hi,
   fun lo hi => .nopAbxDC lo hi,
   fun lo hi => .cmpAbx lo hi,
   fun lo hi => .decAbx lo hi,
   fun lo hi => .dcpAbx lo hi]

/-- Row Ex of the opcode map of R80. -/
def opcodeRowE : List Row :=
  [fun b _ => .cpxImm b,
   fun b _ => .sbcIzx b,
   fun b _ => .nopImmE2 b,
   fun b _ => .iscIzx b,
   fun b _ => .cpxZp b,
   fun b _ => .sbcZp b,
   fun b _ => .incZp b,
   fun b _ => .iscZp b,
   fun _ _ => .inx,
   fun b _ => .sbcImm b,
   fun _ _ => .nop,
   fun b _ => .usbcImm b,
   fun lo hi => .cpxAbs lo hi,
   fun lo hi => .sbcAbs lo hi,
   fun lo hi => .incAbs lo hi,
   fun lo hi => .iscAbs lo hi]

/-- Row Fx of the opcode map of R80. -/
def opcodeRowF : List Row :=
  [fun b _ => .beq b,
   fun b _ => .sbcIzy b,
   fun _ _ => .jamF2,
   fun b _ => .iscIzy b,
   fun b _ => .nopZpxF4 b,
   fun b _ => .sbcZpx b,
   fun b _ => .incZpx b,
   fun b _ => .iscZpx b,
   fun _ _ => .sed,
   fun lo hi => .sbcAby lo hi,
   fun _ _ => .nopFA,
   fun lo hi => .iscAby lo hi,
   fun lo hi => .nopAbxFC lo hi,
   fun lo hi => .sbcAbx lo hi,
   fun lo hi => .incAbx lo hi,
   fun lo hi => .iscAbx lo hi]

/-- The opcode map, one list for each high digit (R80). -/
def opcodeMap : List (List Row) :=
  [opcodeRow0, opcodeRow1, opcodeRow2, opcodeRow3, opcodeRow4, opcodeRow5, opcodeRow6, opcodeRow7]
  ++ [opcodeRow8, opcodeRow9, opcodeRowA, opcodeRowB, opcodeRowC, opcodeRowD, opcodeRowE, opcodeRowF]

/-- The instruction an opcode and the two bytes after it stand for: the opcode's cell of the map (R66, R67, R80). The
defaults are never reached: the map has 16 rows of 16 cells. -/
def decodeOp (op b1 b2 : Byte) : Instr :=
  ((opcodeMap.getD (op.toNat / 16) []).getD (op.toNat % 16) (fun _ _ => .nop)) b1 b2

/-- The operand bytes an opcode takes; the opcode alone tells (R66). -/
def operandCount (op : Byte) : Nat := (decodeOp op 0 0).mode.operandBytes

/-- Decode the instruction at the head of a byte list, and give the bytes after it. -/
def decode : List Byte → Except DecodeError (Instr × List Byte)
  | [] => .error .noBytes
  | op :: rest =>
    if rest.length < operandCount op then .error (.truncated op)
    else .ok (decodeOp op (rest.getD 0 0) (rest.getD 1 0), rest.drop (operandCount op))

/-- The bytes of an instruction, lowest address first (R48, R65). -/
def encode (i : Instr) : List Byte := i.opcode :: i.operands

/-- The instruction the decoder reads from a word numbered as spec/opcode_table.json numbers it: the first byte in bits
7-0, each later byte above it, and zeros above the table's bits. -/
def decodeTableWord (nbits w : Nat) : Option Instr :=
  let v := w % 2 ^ nbits
  match decode [BitVec.ofNat 8 v, BitVec.ofNat 8 (v / 256), BitVec.ofNat 8 (v / 65536)] with
  | .ok (i, _) => some i
  | .error _ => none

end Sys2Proof
end

