-- ==== Sys2Proof/Machine/Bits.lean ====
section
/-!
DEFINITION. Bit fields, concatenation and extension, as the spec's notation names them (R13, R14).
-/

namespace Sys2Proof.Machine

/-- `w16(hi, lo)` (R13). -/
def w16 (hi lo : Byte) : Word := hi ++ lo

/-- `lo(a) = a[7:0]` (R13). -/
def loByte (a : Word) : Byte := a.setWidth 8

/-- `hi(a) = a[15:8]` (R13). -/
def hiByte (a : Word) : Byte := (a >>> 8).setWidth 8

/-- `zext_16(v)` of a byte (R14). -/
def zext16 (v : Byte) : Word := v.setWidth 16

/-- `sext_8(off)`, as an addend modulo 65536 (R14, R130). -/
def sext16 (off : Byte) : Word := off.signExtend 16

/-- The bit vector of a flag: 1 or 0 (R15). -/
def flag (w : Nat) (b : Bool) : BitVec w := if b then 1#w else 0#w

/-- The eight bits of a byte in reverse order (the horizontal flip of R252). -/
def reverseByte (v : Byte) : Byte := v.reverse

end Sys2Proof.Machine
end

