-- ==== Sys2Proof/Config.lean ====
section
/-!
DEFINITION. What is fixed at launch (`Params`, R11: it stands in `State`, so a statement about every state holds for every
value of every parameter), and the draws: values that the spec leaves free (R11, R287; 93_implementation_defined.md section
1.2). A draw is a constant with no body: nothing can be proved about its value, so what is proved holds for every value.
-/

namespace Sys2Proof

/-- The launch parameters of R11, fixed for the whole run. -/
structure Params where
  strictOpcodes : Bool    -- STRICT_OPCODES: an unofficial opcode is fatal (R83, R174)
  ppuPhase      : Fin 3   -- PPU_PHASE: how many of a CPU cycle's 3 dots run before its bus access (R285)
  apuPutParity  : Fin 2   -- APU_PUT_PARITY: the parity of cpu_cycle on which put cycles fall (R261)
  nromPrgRam    : Bool    -- NROM_PRG_RAM: an NROM board has PRG RAM (R212)
  a12Filter     : Nat     -- A12_FILTER_CYCLES: the MMC3's A12 filter (R218)
  samplePeriod  : Nat     -- SAMPLE_PERIOD: CPU cycles for each audio sample (R282)
  sampleWindow  : Nat     -- SAMPLE_WINDOW: samples in a published batch (R291)
deriving DecidableEq, Repr

/-- The parameters the reset state is given: the defaults of R11 where it states one; DESIGN CHOICE (log 3, unsafe) for
the four it leaves open. -/
def Params.standard : Params where
  strictOpcodes := false
  ppuPhase := 0
  apuPutParity := 0
  nromPrgRam := true
  a12Filter := 3
  samplePeriod := 40
  sampleWindow := 735

/-- What one sprite evaluation leaves (R220, R250): secondary OAM, the number of sprites found, whether sprite 0 is
among them, and the dot at which the overflow flag is set. -/
structure SpriteEval where
  secOam : Vector Byte 32
  count  : Fin 9
  spr0   : Bool
  ovfDot : Option Nat
deriving DecidableEq, Repr, Inhabited

/-! ## Power-on memory contents (R300): what a cell that nothing has written reads as -/

/-- RAM_INIT: work RAM at power-on, by offset (R199, R300). Free value (log 1, safe). -/
opaque Config.ramInit : Nat → Byte

/-- CIRAM_INIT: nametable RAM at power-on, by offset (R210, R300). Free value (log 1, safe). -/
opaque Config.ciramInit : Nat → Byte

/-- CHR_RAM_INIT: CHR RAM at power-on, by offset (R208, R300). Free value (log 1, safe). -/
opaque Config.chrRamInit : Nat → Byte

/-- PRG_RAM_INIT: PRG RAM at power-on, by offset (R208, R300). Free value (log 1, safe). -/
opaque Config.prgRamInit : Nat → Byte

/-- FOUR_SCREEN_INIT: four-screen nametable RAM at power-on, by offset (R208, R300). Free value (log 1, safe). -/
opaque Config.fourScreenInit : Nat → Byte

/-! ## Draws taken as the machine runs: each is applied to `State.draws`, which the step that takes one advances -/

/-- ANE_MAGIC: a fresh draw at each execution of opcode $8B (R162). Free value (log 2, safe). -/
opaque Config.aneMagic : Nat → Byte

/-- LXA_MAGIC: a fresh draw at each execution of opcode $AB (R163). Free value (log 2, safe). -/
opaque Config.lxaMagic : Nat → Byte

/-- What SHA, SHX, SHY and TAS write when a DMA halted the CPU during the instruction (R167). Free value (log 2, safe). -/
opaque Config.shaValue : Nat → Byte

/-- Bit 7 of a PPUSTATUS read in the vblank race window (R240). Free value (log 2, safe). -/
opaque Config.raceBit : Nat → Bool

/-- Whether the frame's NMI occurs after a PPUSTATUS read in the race window (R240). Free value (log 2, safe). -/
opaque Config.raceNmi : Nat → Bool

/-- An OAMDATA read while rendering (R229). Free value (log 2, safe). -/
opaque Config.oamRead : Nat → Byte

/-- The PPUDATA read buffer after a read while rendering (R234). Free value (log 2, safe). -/
opaque Config.bufferRead : Nat → Byte

/-- Sprite evaluation that starts with OAMADDR not 0 (R250). Free value (log 2, safe). -/
opaque Config.spriteEval : Nat → SpriteEval

/-- Bits 7 and 6 of a sprite pattern fetch from a palette address, which only a row out of range makes (R197, R252). Free value
(log 36). -/
opaque Config.paletteFetch : Nat → BitVec 2

end Sys2Proof
end

