-- ==== Sys2Proof/Machine/State.lean ====
section
/-!
DEFINITION. The machine's whole state as plain data (R43): the CPU (R20-R41), work RAM and nametable RAM, the controller
ports, the two DMA units' requests, the cartridge with its mapper, the PPU (R220), the APU (R260), the audio batches (R291)
and the launch parameters (R11); the reasons a step can stop; and the power-on state (R298). INVENTORY.md lists every field
with the rule that names it. Fields that the spec does not name are marked MODEL'S OWN, with the log entry that says why.
-/

namespace Sys2Proof.Machine

/-- A memory: the cells that hold a byte, by offset, in strictly rising order (`Memory.wf`, Machine/Memory.lean). An
offset that is not listed holds no byte of its own; what the RAM or ROM then reads as is the business of its read
operation (a power-on draw for RAM, R300; $00 for ROM, log 4). -/
abbrev Memory := List Host.Cell

/-! ## CPU (10_state.md) -/

/-- P: the six stored flags (R25; 90_conflicts.md C13). -/
structure Flags where
  n : Bool  -- negative (R34)
  v : Bool  -- overflow (R33)
  d : Bool  -- decimal: stored, never read by arithmetic (R31, R32)
  i : Bool  -- interrupt disable (R30)
  z : Bool  -- zero (R29)
  c : Bool  -- carry (R28)
deriving DecidableEq, Repr

/-- The registers a program sees. -/
structure Regs where
  a  : Byte   -- accumulator (R20)
  x  : Byte   -- index X (R21)
  y  : Byte   -- index Y (R21)
  sp : Byte   -- S, the stack pointer (R22)
  pc : Word   -- program counter (R23)
  p  : Flags  -- status (R25)
deriving DecidableEq, Repr

/-- What an interrupt poll found to take (R37, R182). -/
inductive IntKind where
  | nmi
  | irq
deriving DecidableEq, Repr

/-- A fatal condition (R173). -/
inductive FatalKind where
  /-- an unofficial opcode in strict mode: its address and the opcode (R174) -/
  | unimplementedOpcode (pc : Word) (opcode : Byte)
  /-- an address with no handler: the routing is total, so no step sets it (R175) -/
  | busAddressUnmapped (addr : Word) (write : Bool)
  /-- an internal invariant is broken: no step sets it (R176) -/
  | invariantViolation (what : String)
deriving DecidableEq, Repr

/-! ## Cartridge (61_bus_cartridge.md sections 4 to 7) -/

/-- The closed set of mappers (R209). -/
inductive Mapper where
  | nrom  -- iNES 0 (R211)
  | mmc3  -- iNES 4 (R213)
deriving DecidableEq, Repr

/-- The MMC3's registers (R213). -/
structure Mmc3 where
  bankSelect  : Byte
  bankReg     : Vector Byte 8
  mirroring   : Bool  -- false vertical, true horizontal
  ramEnable   : Bool
  ramProtect  : Bool
  irqLatch    : Byte
  irqCounter  : Byte
  irqReload   : Bool
  irqEnable   : Bool
  irqFlag     : Bool
  a12Prev     : Bool
  a12LowSince : Nat   -- a CPU cycle number
deriving DecidableEq, Repr

/-- A loaded cartridge (R208). -/
structure Cartridge where
  header     : Header  -- sizes, mirroring, battery, trainer and four-screen bits (R206)
  mapper     : Mapper
  prgRom     : Memory  -- read-only
  chr        : Memory  -- CHR ROM, or CHR RAM when the header gives no CHR ROM
  prgRam     : Memory  -- 8 KiB, present as R212 and R217 say
  fourScreen : Memory  -- 4 KiB, used when the header's four-screen bit is set (R210)
  mmc3       : Mmc3
deriving DecidableEq, Repr

/-! ## PPU (R220) -/

/-- One of the eight sprite units of the line being drawn. -/
structure SpriteUnit where
  lo   : Byte  -- sp_lo
  hi   : Byte  -- sp_hi
  attr : Byte  -- sp_attr
  x    : Byte  -- sp_x
deriving DecidableEq, Repr

/-- A frame: 240 rows of 256 entries, each emphasis bits and a colour index (R256). -/
abbrev Frame := Vector (Vector (BitVec 9) 256) 240

structure Ppu where
  scanline       : Nat   -- 0 to 261
  dot            : Nat   -- 0 to 340
  oddFrame       : Bool
  ctrl           : Byte  -- PPUCTRL
  mask           : Byte  -- PPUMASK
  vblankFlag     : Bool  -- PPUSTATUS bit 7
  sprite0Hit     : Bool  -- PPUSTATUS bit 6
  spriteOverflow : Bool  -- PPUSTATUS bit 5
  oamAddr        : Byte  -- OAMADDR
  v              : BitVec 15  -- current VRAM address
  t              : BitVec 15  -- temporary VRAM address
  fineX          : BitVec 3
  w              : Bool  -- write toggle
  readBuffer     : Byte
  ioLatch        : Byte
  warmup         : Bool
  palette        : Vector (BitVec 6) 32
  oam            : Vector Byte 256
  secOam         : Vector Byte 32
  ntLatch        : Byte
  ptLoLatch      : Byte
  ptHiLatch      : Byte
  atLatch        : BitVec 2
  bgLo           : BitVec 16
  bgHi           : BitVec 16
  atLo           : BitVec 16
  atHi           : BitVec 16
  evalCount      : Nat   -- 0 to 8
  evalSpr0       : Bool
  evalOvfDot     : Option Nat
  lineCount      : Nat   -- 0 to 8
  lineSpr0       : Bool
  units          : Vector SpriteUnit 8
  abus           : PpuAddr  -- ppu_abus (R258)
  frame          : Frame
  published      : Option Frame
  vblSuppress    : Bool  -- MODEL'S OWN (log 11): a race-window read has suppressed this frame's vblank flag (R240)
  frames         : Nat   -- MODEL'S OWN (log 16): frames published so far (R257), which run_frame watches (R290)
deriving DecidableEq, Repr

/-! ## APU (R260) -/

/-- An envelope (R269). -/
structure Envelope where
  start : Bool
  div   : BitVec 4
  decay : BitVec 4
deriving DecidableEq, Repr

structure Pulse where
  duty        : BitVec 2
  halt        : Bool      -- length-counter halt, also envelope loop
  constVol    : Bool
  vol         : BitVec 4
  sweepEn     : Bool
  sweepPeriod : BitVec 3
  sweepNeg    : Bool
  sweepShift  : BitVec 3
  sweepReload : Bool
  sweepDiv    : BitVec 3
  timerPeriod : BitVec 11
  timer       : BitVec 11
  seq         : BitVec 3  -- 0 to 7
  length      : Nat       -- at most 254
  env         : Envelope
deriving DecidableEq, Repr

structure Triangle where
  control     : Bool      -- tri_control: linear counter control, also length-counter halt
  linReload   : Bool
  linValue    : BitVec 7  -- lin_reload_val
  linCounter  : BitVec 7
  timerPeriod : BitVec 11
  timer       : BitVec 11
  seq         : BitVec 5  -- tri_seq, 0 to 31
  length      : Nat
deriving DecidableEq, Repr

structure Noise where
  halt     : Bool
  constVol : Bool
  vol      : BitVec 4
  env      : Envelope
  mode     : Bool
  period   : BitVec 4
  timer    : BitVec 12
  lfsr     : BitVec 15
  length   : Nat
deriving DecidableEq, Repr

structure Dmc where
  irqEn     : Bool
  loop      : Bool
  rate      : BitVec 4
  level     : BitVec 7
  startAddr : Word
  startLen  : BitVec 12
  address   : Word
  remaining : BitVec 12
  buffer    : Option Byte
  shift     : Byte
  bits      : Nat        -- dmc_bits, 0 to 8
  silence   : Bool
  timer     : BitVec 9
deriving DecidableEq, Repr

/-- MODEL'S OWN (log 13): what a register write of this CPU cycle leaves to the cycle's frame-sequencer step, which runs
after the bus access (R261, R286). `none` at every cycle's end. -/
inductive LateWrite where
  /-- a length counter to load, in a cycle whose half-frame clock comes after the write (R268): channel 0 pulse 1,
  1 pulse 2, 2 triangle, 3 noise -/
  | length (channel : Fin 4) (value : Nat)
  /-- a halt bit to set after the same cycle's half-frame clock (R268) -/
  | halt (channel : Fin 4) (value : Bool)
  /-- a $4017 write: the pending reset's count is lowered only in later cycles (R266) -/
  | seqHold
deriving DecidableEq, Repr

structure Apu where
  enP1      : Bool
  enP2      : Bool
  enTri     : Bool
  enNoise   : Bool
  p1        : Pulse
  p2        : Pulse
  tri       : Triangle
  noise     : Noise
  dmc       : Dmc
  frameIrq  : Bool
  dmcIrq    : Bool
  fcMode    : Bool        -- false 4-step, true 5-step
  fcInhibit : Bool
  fcCount   : Nat
  fcResetIn : Option Nat
  samples   : List Rat    -- the output sample queue (R282)
  late      : Option LateWrite
deriving DecidableEq, Repr

/-! ## Controller ports (R200) -/

structure Controller where
  buttons : Byte
  shift   : Byte
deriving DecidableEq, Repr

/-! ## The whole state -/

structure State where
  regs         : Regs
  nmiPending   : Bool            -- R35
  nmiPrev      : Bool            -- R35
  irqLine      : Bool            -- R180
  intNext      : Option IntKind  -- R37
  halted       : Bool            -- R38
  resetPending : Bool            -- MODEL'S OWN (log 5): the next step is the reset sequence (R299)
  cpuCycle     : Nat             -- R39
  cpuBus       : Byte            -- R40
  fatal        : Option FatalKind  -- R41
  wram         : Memory          -- work RAM (R199)
  ciram        : Memory          -- nametable RAM (R210)
  port0        : Controller      -- R200
  port1        : Controller      -- R200
  strobe       : Bool            -- R200
  oamDma       : Option Byte     -- the page of a requested OAM DMA (R204)
  dmcDma       : Bool            -- a DMC DMA is requested or running (R205, R279)
  cart         : Cartridge       -- R208
  ppu          : Ppu             -- R220
  apu          : Apu             -- R260
  audioOut     : List (List Rat) -- completed sample batches (R291)
  params       : Params          -- R11
  draws        : Nat             -- MODEL'S OWN (log 2): draws taken so far
  nmiEdges     : Nat             -- MODEL'S OWN (log 34): NMI edges so far, which `NoInterrupts` counts (R295)
  irqCycles    : Nat             -- MODEL'S OWN (log 34): cycles that ended with the IRQ line active (R295)
deriving DecidableEq, Repr

/-- Why a step stops with a fault. -/
inductive Fault where
  /-- Raised by `step` alone, in a state whose `fatal` is set: no unit takes another step (R173, R41). Safe: the
  machine of the spec takes no further step either. -/
  | fatal (kind : FatalKind)
deriving DecidableEq, Repr

/-- Why a step refuses. No meaning refuses: every opcode has its effect (R82). -/
inductive Refusal where
  /-- Raised by `exec` for an instruction that has no meaning yet. Safe. No arm of `exec` is so refused. -/
  | notModelled (mnemonic : String)
deriving DecidableEq, Repr

/-! ## Power-on (R298) -/

/-- The MMC3 at power-on: all 0 or false except `ram_enable` (R213). -/
def Mmc3.powerOn : Mmc3 where
  bankSelect := 0
  bankReg := Vector.replicate 8 0
  mirroring := false
  ramEnable := true
  ramProtect := false
  irqLatch := 0
  irqCounter := 0
  irqReload := false
  irqEnable := false
  irqFlag := false
  a12Prev := false
  a12LowSince := 0

/-- The PPU at power-on: all 0, false or none except `warmup` (R298). -/
def Ppu.powerOn : Ppu where
  scanline := 0
  dot := 0
  oddFrame := false
  ctrl := 0
  mask := 0
  vblankFlag := false
  sprite0Hit := false
  spriteOverflow := false
  oamAddr := 0
  v := 0
  t := 0
  fineX := 0
  w := false
  readBuffer := 0
  ioLatch := 0
  warmup := true
  palette := Vector.replicate 32 0
  oam := Vector.replicate 256 0
  secOam := Vector.replicate 32 0
  ntLatch := 0
  ptLoLatch := 0
  ptHiLatch := 0
  atLatch := 0
  bgLo := 0
  bgHi := 0
  atLo := 0
  atHi := 0
  evalCount := 0
  evalSpr0 := false
  evalOvfDot := none
  lineCount := 0
  lineSpr0 := false
  units := Vector.replicate 8 ⟨0, 0, 0, 0⟩
  abus := 0
  frame := Vector.replicate 240 (Vector.replicate 256 0)
  published := none
  vblSuppress := false
  frames := 0

def Envelope.powerOn : Envelope where
  start := false
  div := 0
  decay := 0

def Pulse.powerOn : Pulse where
  duty := 0
  halt := false
  constVol := false
  vol := 0
  sweepEn := false
  sweepPeriod := 0
  sweepNeg := false
  sweepShift := 0
  sweepReload := false
  sweepDiv := 0
  timerPeriod := 0
  timer := 0
  seq := 0
  length := 0
  env := Envelope.powerOn

def Triangle.powerOn : Triangle where
  control := false
  linReload := false
  linValue := 0
  linCounter := 0
  timerPeriod := 0
  timer := 0
  seq := 0
  length := 0

/-- The noise channel at power-on: all 0 except the LFSR (R283). -/
def Noise.powerOn : Noise where
  halt := false
  constVol := false
  vol := 0
  env := Envelope.powerOn
  mode := false
  period := 0
  timer := 0
  lfsr := 1
  length := 0

/-- The DMC at power-on: all 0 except `dmc_bits` and `dmc_silence` (R283). -/
def Dmc.powerOn : Dmc where
  irqEn := false
  loop := false
  rate := 0
  level := 0
  startAddr := 0
  startLen := 0
  address := 0
  remaining := 0
  buffer := none
  shift := 0
  bits := 8
  silence := true
  timer := 0

/-- The APU at power-on: 4-step mode with its IRQ enabled, nothing pending, no samples (R283). -/
def Apu.powerOn : Apu where
  enP1 := false
  enP2 := false
  enTri := false
  enNoise := false
  p1 := Pulse.powerOn
  p2 := Pulse.powerOn
  tri := Triangle.powerOn
  noise := Noise.powerOn
  dmc := Dmc.powerOn
  frameIrq := false
  dmcIrq := false
  fcMode := false
  fcInhibit := false
  fcCount := 0
  fcResetIn := none
  samples := []
  late := none

/-- The CPU registers before the reset sequence (R298). -/
def Regs.powerOn : Regs where
  a := 0
  x := 0
  y := 0
  sp := 0
  pc := 0
  p := { n := false, v := false, d := false, i := true, z := false, c := false }

/-- The power-on state of a loaded cartridge, before the first cycle (R297, R298): `power_on(cart)` of R293. -/
def State.powerOn (params : Params) (cart : Cartridge) : State where
  regs := Regs.powerOn
  nmiPending := false
  nmiPrev := false
  irqLine := false
  intNext := none
  halted := false
  resetPending := true
  cpuCycle := 0
  cpuBus := 0
  fatal := none
  wram := []
  ciram := []
  port0 := ⟨0, 0⟩
  port1 := ⟨0, 0⟩
  strobe := false
  oamDma := none
  dmcDma := false
  cart := cart
  ppu := Ppu.powerOn
  apu := Apu.powerOn
  audioOut := []
  params := params
  draws := 0
  nmiEdges := 0
  irqCycles := 0

/-- The cartridge of the reset state: no image is loaded, so its ROM lists nothing. DESIGN CHOICE (log 4, unsafe): an
NROM board with one 16 KiB PRG ROM unit, CHR RAM and horizontal mirroring, every ROM byte $00. -/
def Cartridge.blank : Cartridge where
  header :=
    { prgUnits := 1, chrUnits := 0, mapper := 0, vertical := false, battery := false, trainer := false,
      fourScreen := false }
  mapper := .nrom
  prgRom := []
  chr := []
  prgRam := []
  fourScreen := []
  mmc3 := Mmc3.powerOn

/-- The machine right after reset: power-on (R297 gives no other reset) with the standard parameters and the blank
cartridge (logs 3 and 4). Its first step is the reset sequence (R299). -/
def State.reset : State := State.powerOn Params.standard Cartridge.blank

end Sys2Proof.Machine
end

