-- ==== Sys2Proof/Machine/Apu.lean ====
section
/-!
DEFINITION. The APU (63_apu.md): its registers as the CPU reads and writes them, the frame sequencer, the five channels, the
mixer and the samples. `apuCycle` is its work of one CPU cycle (R261).
-/

namespace Sys2Proof.Machine

/-! ## Get and put cycles (R261) -/

/-- Whether the current CPU cycle is a put cycle; otherwise it is a get cycle (R261). -/
def isPut (s : State) : Bool := s.cpuCycle % 2 == s.params.apuPutParity.val

/-! ## Length counters (R268) -/

/-- LENGTH_TABLE (R268). -/
def lengthTable : Vector Nat 32 :=
  #v[10, 254, 20, 2, 40, 4, 80, 6, 160, 8, 60, 10, 14, 12, 26, 14,
     12, 16, 24, 18, 48, 20, 96, 22, 192, 24, 72, 26, 16, 28, 32, 30]

/-- The length that bits 7-3 of a written byte select (R268). -/
def lengthOf (v : Byte) : Nat := lengthTable[((v >>> 3).setWidth 5).toFin]

/-- A length counter at an H clock (R268). -/
def clockLength (halt : Bool) (n : Nat) : Nat := if 0 < n && !halt then n - 1 else n

/-- The length counter of channel 0 (pulse 1), 1 (pulse 2), 2 (triangle) or 3 (noise). -/
def Apu.lengthOfChannel (a : Apu) (ch : Fin 4) : Nat :=
  if ch = 0 then a.p1.length else if ch = 1 then a.p2.length else if ch = 2 then a.tri.length else a.noise.length

/-- Whether a channel's enable bit is set (R263). -/
def Apu.enabled (a : Apu) (ch : Fin 4) : Bool :=
  if ch = 0 then a.enP1 else if ch = 1 then a.enP2 else if ch = 2 then a.enTri else a.enNoise

/-- Set a channel's length counter. -/
def Apu.setLength (ch : Fin 4) (n : Nat) (a : Apu) : Apu :=
  if ch = 0 then { a with p1 := { a.p1 with length := n } }
  else if ch = 1 then { a with p2 := { a.p2 with length := n } }
  else if ch = 2 then { a with tri := { a.tri with length := n } }
  else { a with noise := { a.noise with length := n } }

/-- Set a channel's halt bit (R262). -/
def Apu.setHalt (ch : Fin 4) (b : Bool) (a : Apu) : Apu :=
  if ch = 0 then { a with p1 := { a.p1 with halt := b } }
  else if ch = 1 then { a with p2 := { a.p2 with halt := b } }
  else if ch = 2 then { a with tri := { a.tri with control := b } }
  else { a with noise := { a.noise with halt := b } }

/-! ## Envelopes and the linear counter (R269, R273) -/

/-- An envelope at a Q clock (R269). -/
def Envelope.clock (vol : BitVec 4) (loop : Bool) (e : Envelope) : Envelope :=
  if e.start then { start := false, decay := 15, div := vol }
  else if e.div = 0 then
    { e with div := vol, decay := if e.decay ≠ 0 then e.decay - 1 else if loop then 15 else e.decay }
  else { e with div := e.div - 1 }

/-- An envelope's output (R269). -/
def Envelope.output (constVol : Bool) (vol : BitVec 4) (e : Envelope) : Nat :=
  if constVol then vol.toNat else e.decay.toNat

/-- The triangle's linear counter at a Q clock (R273). -/
def Triangle.clockLinear (t : Triangle) : Triangle :=
  { t with
    linCounter := if t.linReload then t.linValue else if t.linCounter ≠ 0 then t.linCounter - 1 else t.linCounter
    linReload := t.linReload && t.control }

/-! ## Sweep units (R270) -/

/-- The target period: pulse 1 negates in ones' complement, pulse 2 in two's (R270). -/
def Pulse.target (onesComplement : Bool) (p : Pulse) : Nat :=
  let d := p.timerPeriod.toNat >>> p.sweepShift.toNat
  if p.sweepNeg then p.timerPeriod.toNat - d - (if onesComplement then 1 else 0) else p.timerPeriod.toNat + d

/-- Whether the sweep unit mutes the channel (R270). -/
def Pulse.muted (onesComplement : Bool) (p : Pulse) : Bool :=
  decide (p.timerPeriod.toNat < 8) || (!p.sweepNeg && decide (0x7FF < p.target onesComplement))

/-- A pulse channel's length counter and sweep unit at an H clock (R268, R270). -/
def Pulse.clockHalf (onesComplement : Bool) (p : Pulse) : Pulse :=
  { p with
    length := clockLength p.halt p.length
    timerPeriod :=
      if p.sweepDiv = 0 && p.sweepEn && p.sweepShift ≠ 0 && !p.muted onesComplement then
        BitVec.ofNat 11 (p.target onesComplement)
      else p.timerPeriod
    sweepDiv := if p.sweepDiv = 0 || p.sweepReload then p.sweepPeriod else p.sweepDiv - 1
    sweepReload := if p.sweepDiv = 0 || p.sweepReload then false else p.sweepReload }

/-! ## The frame sequencer (R265, R266) -/

/-- The quarter-frame clock: envelopes and linear counter (R265). -/
def Apu.clockQuarter (a : Apu) : Apu :=
  { a with
    p1 := { a.p1 with env := a.p1.env.clock a.p1.vol a.p1.halt }
    p2 := { a.p2 with env := a.p2.env.clock a.p2.vol a.p2.halt }
    tri := a.tri.clockLinear
    noise := { a.noise with env := a.noise.env.clock a.noise.vol a.noise.halt } }

/-- The half-frame clock: length counters and sweeps (R265). -/
def Apu.clockHalf (a : Apu) : Apu :=
  { a with
    p1 := a.p1.clockHalf true
    p2 := a.p2.clockHalf false
    tri := { a.tri with length := clockLength a.tri.control a.tri.length }
    noise := { a.noise with length := clockLength a.noise.halt a.noise.length } }

/-- What one sequencer step does: its clocks, its IRQ, the new count and the new pending reset. -/
structure SeqStep where
  quarter : Bool
  half    : Bool
  irq     : Bool
  count   : Nat
  resetIn : Option Nat
deriving DecidableEq, Repr

/-- The schedule of R265, at a new value n of `fc_count`. -/
def seqSchedule (fiveStep : Bool) (n : Nat) (pending : Option Nat) : SeqStep :=
  let last := if fiveStep then n == 37281 else n == 29829
  let half := n == 14913 || last
  { quarter := n == 7457 || n == 22371 || half
    half := half
    irq := !fiveStep && (n == 29828 || n == 29829 || n == 29830)
    count := if n = (if fiveStep then 37282 else 29830) then 0 else n
    resetIn := pending }

/-- This cycle's sequencer step: a pending reset counts down, and when it falls due it takes the schedule's place (R266).
In the cycle of the $4017 write itself it does not count down. -/
def Apu.seqStep (a : Apu) : SeqStep :=
  let next := a.fcCount + 1
  match a.fcResetIn with
  | none => seqSchedule a.fcMode next none
  | some n =>
    if a.late = some .seqHold then seqSchedule a.fcMode next (some n)
    else if n ≤ 1 then { quarter := a.fcMode, half := a.fcMode, irq := false, count := 0, resetIn := none }
    else seqSchedule a.fcMode next (some (n - 1))

/-- Carry out a sequencer step (R265). -/
def Apu.runSeq (e : SeqStep) (a : Apu) : Apu :=
  let a1 := if e.quarter then a.clockQuarter else a
  let a2 := if e.half then a1.clockHalf else a1
  { a2 with
    frameIrq := a2.frameIrq || (e.irq && !a2.fcInhibit)
    fcCount := e.count
    fcResetIn := e.resetIn }

/-- Carry out the length load or halt write of this cycle's bus access (R268). -/
def Apu.commit (w : Option LateWrite) (a : Apu) : Apu :=
  match w with
  | some (.length ch n) => a.setLength ch n
  | some (.halt ch b) => a.setHalt ch b
  | some .seqHold => a
  | none => a

/-- The frame sequencer's work of a CPU cycle (R265, R266). A length load or halt write of this cycle comes before it, but
after it when it makes an H clock; then a load of a counter that was not 0 is dropped (R268, log 13). -/
def Apu.sequencer (a : Apu) : Apu :=
  let e := a.seqStep
  let b := { a with late := none }
  if e.half then
    let keep :=
      match a.late with
      | some (.length ch _) => a.lengthOfChannel ch == 0
      | some (.halt _ _) => true
      | some .seqHold => true
      | none => true
    (b.runSeq e).commit (if keep then a.late else none)
  else (b.commit a.late).runSeq e

/-! ## Timers (R271, R274, R276, R278) -/

/-- A pulse channel's timer (R271). -/
def Pulse.clockTimer (p : Pulse) : Pulse :=
  if p.timer = 0 then { p with timer := p.timerPeriod, seq := p.seq + 7 } else { p with timer := p.timer - 1 }

/-- The triangle's timer (R274). -/
def Triangle.clockTimer (t : Triangle) : Triangle :=
  if t.timer = 0 then
    { t with timer := t.timerPeriod, seq := if 0 < t.length && t.linCounter ≠ 0 then t.seq + 1 else t.seq }
  else { t with timer := t.timer - 1 }

/-- NOISE, in CPU cycles (R276). -/
def noiseTable : Vector Nat 16 :=
  #v[4, 8, 16, 32, 64, 96, 128, 160, 202, 254, 380, 508, 762, 1016, 2034, 4068]

/-- The LFSR clocked once (R276). -/
def clockLfsr (mode : Bool) (r : BitVec 15) : BitVec 15 :=
  let fb := r.getLsbD 0 ^^ (if mode then r.getLsbD 6 else r.getLsbD 1)
  (r >>> 1) ||| (flag 15 fb <<< 14)

/-- The noise timer (R276). -/
def Noise.clockTimer (n : Noise) : Noise :=
  if n.timer = 0 then
    { n with timer := BitVec.ofNat 12 (noiseTable[n.period.toFin] / 2 - 1), lfsr := clockLfsr n.mode n.lfsr }
  else { n with timer := n.timer - 1 }

/-- DMC_RATE, in CPU cycles (R278). -/
def dmcRateTable : Vector Nat 16 :=
  #v[428, 380, 340, 320, 286, 254, 226, 214, 190, 160, 142, 128, 106, 84, 72, 54]

/-- The output level after one bit of the shift register (R278). -/
def Dmc.nextLevel (d : Dmc) : BitVec 7 :=
  if d.silence then d.level
  else if d.shift.getLsbD 0 then (if d.level.toNat ≤ 125 then d.level + 2 else d.level)
  else (if 2 ≤ d.level.toNat then d.level - 2 else d.level)

/-- An output step of the DMC (R278). -/
def Dmc.outputStep (d : Dmc) : Dmc :=
  let d1 := { d with level := d.nextLevel, shift := d.shift >>> 1, bits := d.bits - 1 }
  if d1.bits = 0 then
    match d1.buffer with
    | none => { d1 with bits := 8, silence := true }
    | some b => { d1 with bits := 8, silence := false, shift := b, buffer := none }
  else d1

/-- The DMC timer (R278). -/
def Dmc.clockTimer (d : Dmc) : Dmc :=
  if d.timer = 0 then { d.outputStep with timer := BitVec.ofNat 9 (dmcRateTable[d.rate.toFin] / 2 - 1) }
  else { d with timer := d.timer - 1 }

/-- The timers of a CPU cycle: the triangle's in every one, the others in put cycles (R261). -/
def Apu.timers (put : Bool) (a : Apu) : Apu :=
  let t := a.tri.clockTimer
  if put then
    { a with p1 := a.p1.clockTimer, p2 := a.p2.clockTimer, tri := t, noise := a.noise.clockTimer, dmc := a.dmc.clockTimer }
  else { a with tri := t }

/-! ## Channel outputs and the mixer (R272, R275, R277, R281) -/

/-- DUTY[duty][seq] (R271). -/
def dutyBit (duty : BitVec 2) (seq : BitVec 3) : Bool :=
  let wave : Byte := if duty = 0 then 0x80 else if duty = 1 then 0xC0 else if duty = 2 then 0xF0 else 0x3F
  wave.getLsbD seq.toNat

/-- A pulse channel's output (R272). -/
def Pulse.output (onesComplement : Bool) (p : Pulse) : Nat :=
  if p.length = 0 || !dutyBit p.duty p.seq || p.muted onesComplement then 0 else p.env.output p.constVol p.vol

/-- The triangle's output: 15 down to 0, then 0 up to 15 (R275). -/
def Triangle.output (t : Triangle) : Nat := if t.seq.toNat < 16 then 15 - t.seq.toNat else t.seq.toNat - 16

/-- The noise output (R277). -/
def Noise.output (n : Noise) : Nat :=
  if n.length = 0 || n.lfsr.getLsbD 0 then 0 else n.env.output n.constVol n.vol

/-- The mixer, in exact rationals (R281). -/
def mix (p1 p2 t n d : Nat) : Rat :=
  let pulseOut : Rat := if p1 + p2 = 0 then 0 else (2397 / 25) / (8128 / ((p1 + p2 : Nat) : Rat) + 100)
  let tndOut : Rat :=
    if t = 0 ∧ n = 0 ∧ d = 0 then 0
    else (15979 / 100) / (1 / ((t : Rat) / 8227 + (n : Rat) / 12241 + (d : Rat) / 22638) + 100)
  2 * (pulseOut + tndOut) - 1

/-- The mixer's current value (R281). -/
def Apu.sample (a : Apu) : Rat :=
  mix (a.p1.output true) (a.p2.output false) a.tri.output a.noise.output a.dmc.level.toNat

/-! ## The DMC memory reader (R279) -/

/-- Request a DMC DMA when the sample buffer is empty and bytes remain (R279). -/
def dmcReader (s : State) : State :=
  if s.apu.dmc.buffer = none ∧ s.apu.dmc.remaining ≠ 0 then { s with dmcDma := true } else s

/-- The reader takes the byte of the DMA's get cycle (R279). -/
def Apu.takeSample (b : Byte) (remaining : BitVec 12) (a : Apu) : Apu :=
  let d := { a.dmc with
    buffer := some b
    address := if a.dmc.address = 0xFFFF#16 then 0x8000#16 else a.dmc.address + 1
    remaining := remaining }
  if remaining = 0 then
    if d.loop then { a with dmc := { d with address := d.startAddr, remaining := d.startLen } }
    else { a with dmc := d, dmcIrq := a.dmcIrq || d.irqEn }
  else { a with dmc := d }

/-- The end of a DMC DMA: the byte goes to the reader (R279). With no byte remaining none is taken; a disable withdraws the
request, so no run comes to that case (`ApuInv`, log 12). -/
def dmcDone (b : Byte) (s : State) : State :=
  if s.apu.dmc.remaining = 0 then { s with dmcDma := false }
  else { s with dmcDma := false, apu := s.apu.takeSample b (s.apu.dmc.remaining - 1) }

/-! ## Samples (R282, R291) -/

/-- The sample check at a cycle's end, and the batch handed over when the window is full (R282, R291). -/
def sampleCheck (s : State) : State :=
  if (s.cpuCycle + 1) % s.params.samplePeriod = 0 then
    let q := s.apu.samples ++ [s.apu.sample]
    if s.params.sampleWindow ≤ q.length then
      { s with apu := { s.apu with samples := [] }, audioOut := s.audioOut ++ [q] }
    else { s with apu := { s.apu with samples := q } }
  else s

/-- The APU's work of one CPU cycle (R261). -/
def apuCycle (s : State) : State :=
  sampleCheck (dmcReader { s with apu := s.apu.sequencer.timers (isPut s) })

/-! ## Registers (R262 to R264, R266) -/

/-- The byte $4015 reads as; bit 5 is open bus (R264). -/
def Apu.statusByte (a : Apu) (bus : Byte) : Byte :=
  (flag 8 a.dmcIrq <<< 7) ||| (flag 8 a.frameIrq <<< 6) ||| (bus &&& 0x20#8)
    ||| (flag 8 (a.dmc.remaining ≠ 0) <<< 4) ||| (flag 8 (0 < a.noise.length) <<< 3)
    ||| (flag 8 (0 < a.tri.length) <<< 2) ||| (flag 8 (0 < a.p2.length) <<< 1) ||| flag 8 (0 < a.p1.length)

/-- A read of $4015 (R264). -/
def readApuStatus (s : State) : State :=
  { s with cpuBus := s.apu.statusByte s.cpuBus, apu := { s.apu with frameIrq := false } }

/-- A channel's length index write: a load that this cycle's sequencer step commits, if the channel is enabled (R268). -/
def Apu.loadLength (ch : Fin 4) (v : Byte) (a : Apu) : Apu :=
  if a.enabled ch then { a with late := some (.length ch (lengthOf v)) } else a

/-- $4000 and $4004, but for the halt bit (R262). -/
def Pulse.writeVolume (v : Byte) (p : Pulse) : Pulse :=
  { p with duty := (v >>> 6).setWidth 2, constVol := v.getLsbD 4, vol := v.setWidth 4 }

/-- $4001 and $4005 (R262). -/
def Pulse.writeSweep (v : Byte) (p : Pulse) : Pulse :=
  { p with
    sweepEn := v.getLsbD 7
    sweepPeriod := (v >>> 4).setWidth 3
    sweepNeg := v.getLsbD 3
    sweepShift := v.setWidth 3
    sweepReload := true }

/-- Bits 7-0 of a timer period (R262). -/
def periodLow (v : Byte) (t : BitVec 11) : BitVec 11 := (t &&& 0x700#11) ||| v.setWidth 11

/-- Bits 10-8 of a timer period (R262). -/
def periodHigh (v : Byte) (t : BitVec 11) : BitVec 11 := (t &&& 0x0FF#11) ||| ((v &&& 7#8).setWidth 11 <<< 8)

/-- $4003 and $4007, but for the length (R262). -/
def Pulse.writeHigh (v : Byte) (p : Pulse) : Pulse :=
  { p with timerPeriod := periodHigh v p.timerPeriod, seq := 0, env := { p.env with start := true } }

/-- The APU after a write of $4015 (R263). -/
def Apu.writeEnables (v : Byte) (a : Apu) : Apu :=
  let dmc :=
    if !v.getLsbD 4 then { a.dmc with remaining := 0 }
    else if a.dmc.remaining = 0 then { a.dmc with address := a.dmc.startAddr, remaining := a.dmc.startLen }
    else a.dmc
  { a with
    enP1 := v.getLsbD 0
    enP2 := v.getLsbD 1
    enTri := v.getLsbD 2
    enNoise := v.getLsbD 3
    p1 := { a.p1 with length := if v.getLsbD 0 then a.p1.length else 0 }
    p2 := { a.p2 with length := if v.getLsbD 1 then a.p2.length else 0 }
    tri := { a.tri with length := if v.getLsbD 2 then a.tri.length else 0 }
    noise := { a.noise with length := if v.getLsbD 3 then a.noise.length else 0 }
    dmc := dmc
    dmcIrq := false }

/-- A write of $4017, in a put or a get cycle (R266). -/
def Apu.writeFrameCounter (put : Bool) (v : Byte) (a : Apu) : Apu :=
  { a with
    fcMode := v.getLsbD 7
    fcInhibit := v.getLsbD 6
    frameIrq := a.frameIrq && !v.getLsbD 6
    fcResetIn := some (if put then 4 else 3)
    late := some .seqHold }

/-- A write of $4015 (R263). Disabling the DMC stops the fetching of new bytes (R278): a sample request that stands is
withdrawn (log 12). -/
def writeApuEnables (v : Byte) (s : State) : State :=
  { s with apu := s.apu.writeEnables v, dmcDma := s.dmcDma && v.getLsbD 4 }

/-- A write of register n, that is of $4000 + n, n below 32, but for $4015 (`writeApuEnables`); $4014 and $4016 are not the
APU's (R262). -/
def Apu.write (put : Bool) (n : BitVec 5) (v : Byte) (a : Apu) : Apu :=
  if n = 0x00#5 then { a with p1 := a.p1.writeVolume v, late := some (.halt 0 (v.getLsbD 5)) }
  else if n = 0x01#5 then { a with p1 := a.p1.writeSweep v }
  else if n = 0x02#5 then { a with p1 := { a.p1 with timerPeriod := periodLow v a.p1.timerPeriod } }
  else if n = 0x03#5 then { a with p1 := a.p1.writeHigh v }.loadLength 0 v
  else if n = 0x04#5 then { a with p2 := a.p2.writeVolume v, late := some (.halt 1 (v.getLsbD 5)) }
  else if n = 0x05#5 then { a with p2 := a.p2.writeSweep v }
  else if n = 0x06#5 then { a with p2 := { a.p2 with timerPeriod := periodLow v a.p2.timerPeriod } }
  else if n = 0x07#5 then { a with p2 := a.p2.writeHigh v }.loadLength 1 v
  else if n = 0x08#5 then { a with tri := { a.tri with linValue := v.setWidth 7 }, late := some (.halt 2 (v.getLsbD 7)) }
  else if n = 0x0A#5 then { a with tri := { a.tri with timerPeriod := periodLow v a.tri.timerPeriod } }
  else if n = 0x0B#5 then
    { a with tri := { a.tri with timerPeriod := periodHigh v a.tri.timerPeriod, linReload := true } }.loadLength 2 v
  else if n = 0x0C#5 then
    { a with
      noise := { a.noise with constVol := v.getLsbD 4, vol := v.setWidth 4 }
      late := some (.halt 3 (v.getLsbD 5)) }
  else if n = 0x0E#5 then { a with noise := { a.noise with mode := v.getLsbD 7, period := v.setWidth 4 } }
  else if n = 0x0F#5 then
    { a with noise := { a.noise with env := { a.noise.env with start := true } } }.loadLength 3 v
  else if n = 0x10#5 then
    { a with
      dmc := { a.dmc with irqEn := v.getLsbD 7, loop := v.getLsbD 6, rate := v.setWidth 4 }
      dmcIrq := a.dmcIrq && v.getLsbD 7 }
  else if n = 0x11#5 then { a with dmc := { a.dmc with level := v.setWidth 7 } }
  else if n = 0x12#5 then { a with dmc := { a.dmc with startAddr := 0xC000#16 + (v.setWidth 16 <<< 6) } }
  else if n = 0x13#5 then { a with dmc := { a.dmc with startLen := (v.setWidth 12 <<< 4) + 1 } }
  else if n = 0x17#5 then a.writeFrameCounter put v
  else a

end Sys2Proof.Machine
end

