-- ==== Sys2Proof/Machine/Memory.lean ====
section
/-!
DEFINITION. One memory: its canonical form, reading and writing one cell, and laying out a list of bytes. Each RAM or ROM of
the machine is one such memory (Machine/Cart.lean and Machine/Bus.lean say what an unlisted cell of each reads as).
-/

namespace Sys2Proof.Machine

/-- The canonical form: offsets strictly rising, so that no offset is listed twice. -/
abbrev Memory.wf (m : Memory) : Prop := m.Pairwise (fun p q => p.1 < q.1)

/-- Every listed offset lies below a memory's size. -/
abbrev Memory.below (size : Nat) (m : Memory) : Prop := ∀ p ∈ m, p.1 < size

/-- The byte a cell holds, if it is listed. -/
def Memory.get? : Memory → Nat → Option Byte
  | [], _ => none
  | (k, v) :: m, a => if k = a then some v else Memory.get? m a

/-- Write a cell, keeping the canonical form. -/
def Memory.set : Memory → Nat → Byte → Memory
  | [], a, v => [(a, v)]
  | (k, w) :: m, a, v =>
    if a < k then (a, v) :: (k, w) :: m
    else if a = k then (a, v) :: m
    else (k, w) :: Memory.set m a v

/-- Drop a cell, keeping the canonical form. -/
def Memory.erase : Memory → Nat → Memory
  | [], _ => []
  | (k, w) :: m, a => if k = a then m else (k, w) :: Memory.erase m a

/-- Write a ROM cell: $00, what an unlisted one reads as, is not listed (log 4). -/
def Memory.setRom (m : Memory) (a : Nat) (v : Byte) : Memory := if v = 0 then m.erase a else m.set a v

/-- The bytes of a RAM region laid out from an offset on. -/
def Memory.ofBytes : Nat → List Byte → Memory
  | _, [] => []
  | a, v :: vs => (a, v) :: Memory.ofBytes (a + 1) vs

/-- The bytes of a ROM laid out from an offset on: an unlisted ROM byte reads as $00, so no $00 is listed. -/
def Memory.ofRom : Nat → List Byte → Memory
  | _, [] => []
  | a, v :: vs => if v = 0 then Memory.ofRom (a + 1) vs else (a, v) :: Memory.ofRom (a + 1) vs

end Sys2Proof.Machine
end

