-- ==== Sys2Proof/Machine/Cart.lean ====
section
/-!
DEFINITION. The cartridge's side of the two buses: PRG ROM and PRG RAM for the CPU, CHR and nametables for the PPU, the
mapper's registers and the MMC3's scanline counter (R196, R197, R208 to R219).
-/

namespace Sys2Proof.Machine

/-! ## Sizes and banks -/

/-- The size of PRG ROM in bytes (R206). -/
def Cartridge.prgSize (c : Cartridge) : Nat := 16384 * c.header.prgUnits

/-- Whether CHR memory is RAM: the header gives no CHR ROM (R206, R208). -/
def Cartridge.chrIsRam (c : Cartridge) : Bool := c.header.chrUnits = 0

/-- How many 1 KiB CHR banks there are (R216). -/
def Cartridge.chrBanks (c : Cartridge) : Nat := if c.chrIsRam then 8 else 8 * c.header.chrUnits

/-- The 8 KiB PRG bank of each MMC3 window, before the modulo (R215). -/
def Cartridge.mmc3PrgBank (c : Cartridge) (a : Word) : Nat :=
  let n := 2 * c.header.prgUnits
  let b6 := (c.mmc3.bankReg[6] &&& 0x3F#8).toNat
  let b7 := (c.mmc3.bankReg[7] &&& 0x3F#8).toNat
  let m := c.mmc3.bankSelect.getLsbD 6
  if a.toNat < 0xA000 then (if m then n - 2 else b6)
  else if a.toNat < 0xC000 then b7
  else if a.toNat < 0xE000 then (if m then b6 else n - 2)
  else n - 1

/-- The PRG ROM offset that a CPU address in $8000-$FFFF reads: NROM (R211) or MMC3 (R215). -/
def Cartridge.prgOffset (c : Cartridge) (a : Word) : Nat :=
  match c.mapper with
  | .nrom => (a.toNat - 0x8000) % c.prgSize
  | .mmc3 => (c.mmc3PrgBank a % (2 * c.header.prgUnits)) * 8192 + a.toNat % 8192

/-- The MMC3's bank of each 1 KiB CHR slot, before the modulo (R216). -/
def Cartridge.mmc3ChrBank (c : Cartridge) (slot : Nat) : Nat :=
  let r := c.mmc3.bankReg
  let slot := if c.mmc3.bankSelect.getLsbD 7 then (slot + 4) % 8 else slot
  match slot with
  | 0 => (r[0] &&& 0xFE#8).toNat
  | 1 => (r[0] &&& 0xFE#8).toNat + 1
  | 2 => (r[1] &&& 0xFE#8).toNat
  | 3 => (r[1] &&& 0xFE#8).toNat + 1
  | 4 => r[2].toNat
  | 5 => r[3].toNat
  | 6 => r[4].toNat
  | _ => r[5].toNat

/-- The CHR offset that a pattern-table address reads: NROM (R211) or MMC3 (R216). -/
def Cartridge.chrOffset (c : Cartridge) (a : PpuAddr) : Nat :=
  match c.mapper with
  | .nrom => a.toNat % 8192
  | .mmc3 => (c.mmc3ChrBank (a.toNat % 8192 / 1024) % c.chrBanks) * 1024 + a.toNat % 1024

/-! ## CPU side -/

/-- Whether $6000-$7FFF reads PRG RAM (R212, R217). -/
def Cartridge.ramReadable (p : Params) (c : Cartridge) : Bool :=
  match c.mapper with
  | .nrom => p.nromPrgRam || c.header.trainer
  | .mmc3 => c.mmc3.ramEnable

/-- Whether $6000-$7FFF stores to PRG RAM (R212, R217). -/
def Cartridge.ramWritable (p : Params) (c : Cartridge) : Bool :=
  match c.mapper with
  | .nrom => p.nromPrgRam || c.header.trainer
  | .mmc3 => c.mmc3.ramEnable && !c.mmc3.ramProtect

/-- A PRG RAM byte: an unwritten one is a power-on draw (R208, R300). -/
def Cartridge.prgRamByte (c : Cartridge) (a : Word) : Byte :=
  (c.prgRam.get? (a.toNat % 8192)).getD (Config.prgRamInit (a.toNat % 8192))

/-- A PRG ROM byte. An unlisted one is $00 (log 4). -/
def Cartridge.prgRomByte (c : Cartridge) (a : Word) : Byte := (c.prgRom.get? (c.prgOffset a)).getD 0

/-- `mapper.cpu_read(a)` for $4020-$FFFF; `none` reads as open bus (R196, R209, R211, R212, R215, R217). -/
def Cartridge.cpuRead (p : Params) (c : Cartridge) (a : Word) : Option Byte :=
  if a.toNat < 0x6000 then none
  else if a.toNat < 0x8000 then (if c.ramReadable p then some (c.prgRamByte a) else none)
  else some (c.prgRomByte a)

/-- An MMC3 register write, decoded by `a & $E001` (R214). -/
def Mmc3.write (r : Mmc3) (a : Word) (v : Byte) : Mmc3 :=
  let odd := a.getLsbD 0
  if a.toNat < 0xA000 then
    if odd then { r with bankReg := r.bankReg.set (r.bankSelect.toNat % 8) v (Nat.mod_lt _ (by decide)) }
    else { r with bankSelect := v }
  else if a.toNat < 0xC000 then
    if odd then { r with ramEnable := v.getLsbD 7, ramProtect := v.getLsbD 6 }
    else { r with mirroring := v.getLsbD 0 }
  else if a.toNat < 0xE000 then
    if odd then { r with irqCounter := 0, irqReload := true }
    else { r with irqLatch := v }
  else
    if odd then { r with irqEnable := true }
    else { r with irqEnable := false, irqFlag := false }

/-- `mapper.cpu_write(a, v)` for $4020-$FFFF (R196, R209, R211, R212, R214, R217). -/
def Cartridge.cpuWrite (p : Params) (c : Cartridge) (a : Word) (v : Byte) : Cartridge :=
  if a.toNat < 0x6000 then c
  else if a.toNat < 0x8000 then
    if c.ramWritable p then { c with prgRam := c.prgRam.set (a.toNat % 8192) v } else c
  else match c.mapper with
    | .nrom => c
    | .mmc3 => { c with mmc3 := c.mmc3.write a v }

/-- `irq_pending` (R209): the MMC3's flag (R219); NROM never asserts it (R211). -/
def Cartridge.irqPending (c : Cartridge) : Bool :=
  match c.mapper with
  | .nrom => false
  | .mmc3 => c.mmc3.irqFlag

/-! ## PPU side -/

/-- A pattern-table byte: CHR ROM, or CHR RAM with its power-on draw (R211, R216, R300). -/
def Cartridge.chrRead (c : Cartridge) (a : PpuAddr) : Byte :=
  let o := c.chrOffset a
  (c.chr.get? o).getD (if c.chrIsRam then Config.chrRamInit o else 0)

/-- A pattern-table write stores only to CHR RAM (R211, R216). -/
def Cartridge.chrWrite (c : Cartridge) (a : PpuAddr) (v : Byte) : Cartridge :=
  if c.chrIsRam then { c with chr := c.chr.set (c.chrOffset a) v } else c

/-- Whether nametables are mirrored vertically: NROM's header bit, the MMC3's register (R210). -/
def Cartridge.mirrorsVertically (c : Cartridge) : Bool :=
  match c.mapper with
  | .nrom => c.header.vertical
  | .mmc3 => !c.mmc3.mirroring

/-- The nametable RAM offset of a nametable address: in four-screen RAM, or in CIRAM under the mirroring (R210). -/
def Cartridge.ntOffset (c : Cartridge) (a : PpuAddr) : Nat :=
  let t := a.toNat / 1024 % 4
  let o := a.toNat % 1024
  if c.header.fourScreen then t * 1024 + o
  else if c.mirrorsVertically then t % 2 * 1024 + o
  else t / 2 * 1024 + o

/-- `ppu_read(a)` for $0000-$3EFF: pattern tables below $2000, nametables above (R197, R209, R210). No caller reads a palette
address through it: PPUDATA reads the byte under the palette (R233), and `fetchByte` serves a rendering fetch (log 36). -/
def ppuRead (s : State) (a : PpuAddr) : Byte :=
  if a.toNat < 0x2000 then s.cart.chrRead a
  else if s.cart.header.fourScreen then
    (s.cart.fourScreen.get? (s.cart.ntOffset a)).getD (Config.fourScreenInit (s.cart.ntOffset a))
  else (s.ciram.get? (s.cart.ntOffset a)).getD (Config.ciramInit (s.cart.ntOffset a))

/-- `ppu_write(a, v)` for $0000-$3EFF (R197, R209, R210). -/
def ppuWrite (a : PpuAddr) (v : Byte) (s : State) : State :=
  if a.toNat < 0x2000 then { s with cart := s.cart.chrWrite a v }
  else if s.cart.header.fourScreen then
    { s with cart := { s.cart with fourScreen := s.cart.fourScreen.set (s.cart.ntOffset a) v } }
  else { s with ciram := s.ciram.set (s.cart.ntOffset a) v }

/-- One clock of the MMC3's scanline counter (R219). -/
def Mmc3.clockCounter (r : Mmc3) : Mmc3 :=
  let counter := if r.irqCounter = 0 || r.irqReload then r.irqLatch else r.irqCounter - 1
  let reload := if r.irqCounter = 0 || r.irqReload then false else r.irqReload
  { r with
    irqCounter := counter
    irqReload := reload
    irqFlag := r.irqFlag || (counter = 0 && r.irqEnable) }

/-- The MMC3's A12 watcher, called once for each dot (R218). -/
def Mmc3.observe (filter cycle : Nat) (x : Bool) (r : Mmc3) : Mmc3 :=
  let r1 := if !x && r.a12Prev then { r with a12LowSince := cycle } else r
  let r2 := if x && !r.a12Prev && decide (filter ≤ cycle - r.a12LowSince) then r1.clockCounter else r1
  { r2 with a12Prev := x }

/-- `mapper.ppu_observe(ppu_abus)` (R209, R211, R218, R258). -/
def ppuObserve (s : State) : State :=
  match s.cart.mapper with
  | .nrom => s
  | .mmc3 =>
    { s with cart := { s.cart with
        mmc3 := s.cart.mmc3.observe s.params.a12Filter s.cpuCycle (s.ppu.abus.getLsbD 12) } }

end Sys2Proof.Machine
end

