-- ==== Sys2Proof/Machine/Ppu.lean ====
section
/-!
DEFINITION. The PPU's scanline and dot state machine (62_ppu.md sections 1 and 3 to 7): `ppuDot` runs one dot. Within a dot
the order is: flags and frame publishing, fetches, shift registers, scroll, sprites, the pixel, the position's advance, the
mapper's view of the address bus (log 10).
-/

namespace Sys2Proof.Machine

/-! ## When the rendering rules act -/

/-- `rendering_enabled` (R223). -/
def Ppu.renderingEnabled (p : Ppu) : Bool := p.mask.getLsbD 3 || p.mask.getLsbD 4

/-- `render_line` (R223). -/
def Ppu.renderLine (p : Ppu) : Bool := decide (p.scanline ≤ 239) || p.scanline == 261

/-- `rendering` (R223). -/
def Ppu.rendering (p : Ppu) : Bool := p.renderingEnabled && p.renderLine

/-- The cell of palette RAM that a palette address selects, $3F10, $3F14, $3F18 and $3F1C mirrored (R222). -/
def paletteEntry (a : PpuAddr) : Fin 32 :=
  let i := a.setWidth 5
  (if i &&& 0x13#5 = 0x10#5 then i &&& 0x0F#5 else i).toFin

/-! ## Scroll (R246 to R248) -/

/-- The coarse X increment (R246). -/
def coarseXInc (v : BitVec 15) : BitVec 15 :=
  if v &&& 0x001F#15 = 31#15 then (v &&& ~~~0x001F#15) ^^^ 0x0400#15 else v + 1

/-- The Y increment (R247). -/
def yInc (v : BitVec 15) : BitVec 15 :=
  if v >>> 12 < 7#15 then v + 0x1000#15
  else
    let v0 := v &&& 0x0FFF#15
    let y := (v >>> 5) &&& 31#15
    if y = 29#15 then (v0 &&& ~~~0x03E0#15) ^^^ 0x0800#15
    else if y = 31#15 then v0 &&& ~~~0x03E0#15
    else (v0 &&& ~~~0x03E0#15) ||| ((y + 1) <<< 5)

/-- The horizontal copy from t to v (R248). -/
def copyHorizontal (v t : BitVec 15) : BitVec 15 := (v &&& ~~~0x041F#15) ||| (t &&& 0x041F#15)

/-- The vertical copy from t to v (R248). -/
def copyVertical (v t : BitVec 15) : BitVec 15 := (v &&& ~~~0x7BE0#15) ||| (t &&& 0x7BE0#15)

/-- The scroll updates of a dot where `rendering` holds (R246, R247, R248). -/
def Ppu.scroll (p : Ppu) : Ppu :=
  let d := p.dot
  let v1 := if d % 8 = 0 && ((8 ≤ d && d ≤ 256) || d = 328 || d = 336) then coarseXInc p.v else p.v
  let v2 := if d = 256 then yInc v1 else v1
  let v3 := if d = 257 then copyHorizontal v2 p.t else v2
  let v4 := if p.scanline = 261 && 280 ≤ d && d ≤ 304 then copyVertical v3 p.t else v3
  { p with v := v4 }

/-! ## Background fetch and shift registers (R244, R245) -/

/-- The nametable fetch address (R244). -/
def Ppu.ntAddr (p : Ppu) : PpuAddr := 0x2000#14 ||| (p.v.setWidth 14 &&& 0x0FFF#14)

/-- The attribute fetch address (R244). -/
def Ppu.atAddr (p : Ppu) : PpuAddr :=
  let v : PpuAddr := p.v.setWidth 14
  0x23C0#14 ||| (v &&& 0x0C00#14) ||| ((v >>> 4) &&& 0x38#14) ||| ((v >>> 2) &&& 0x07#14)

/-- The background pattern fetch address, low plane (R244). -/
def Ppu.bgPatternAddr (p : Ppu) : PpuAddr :=
  (flag 14 (p.ctrl.getLsbD 4) <<< 12) ||| (p.ntLatch.setWidth 14 <<< 4) ||| (p.v >>> 12).setWidth 14

/-- The tile's two palette bits in an attribute byte (R244). -/
def attributeBits (v : BitVec 15) (at8 : Byte) : BitVec 2 :=
  (at8 >>> (((v >>> 4) &&& 4#15) ||| (v &&& 2#15)).toNat).setWidth 2

/-- The byte a rendering fetch reads. At $3F00-$3FFF R197 routes it to palette RAM, whose entries have six bits (R222); that the
entry gives bits 5 to 0 and that bits 7 and 6 are free is the model's choice (log 36). Only a sprite slot whose row is out of
range fetches there. -/
def fetchByte (a : PpuAddr) (s : State) : Byte :=
  if 0x3F00 ≤ a.toNat then Config.paletteFetch s.draws ++ s.ppu.palette[paletteEntry a] else ppuRead s a

/-- One fetch: its address goes on the bus, and `k` takes the byte read (R258); a fetch from the palette takes a draw
(log 36). -/
def fetch (a : PpuAddr) (k : Byte → Ppu → Ppu) (s : State) : State :=
  { s with
    ppu := k (fetchByte a s) { s.ppu with abus := a }
    draws := if 0x3F00 ≤ a.toNat then s.draws + 1 else s.draws }

/-- The background fetches of a dot where `rendering` holds, and the two unused nametable fetches (R244). -/
def bgFetch (s : State) : State :=
  let p := s.ppu
  let d := p.dot
  if (1 ≤ d && d ≤ 256) || (321 ≤ d && d ≤ 336) then
    match (d - 1) % 8 with
    | 0 => fetch p.ntAddr (fun b q => { q with ntLatch := b }) s
    | 2 => fetch p.atAddr (fun b q => { q with atLatch := attributeBits q.v b }) s
    | 4 => fetch p.bgPatternAddr (fun b q => { q with ptLoLatch := b }) s
    | 6 => fetch (p.bgPatternAddr ||| 8#14) (fun b q => { q with ptHiLatch := b }) s
    | _ => s
  else if d = 337 || d = 339 then fetch p.ntAddr (fun _ q => q) s
  else s

/-- The background shift registers at a dot where `rendering` holds: shift, then reload (R245). -/
def Ppu.shiftRegs (p : Ppu) : Ppu :=
  let d := p.dot
  if (2 ≤ d && d ≤ 257) || (322 ≤ d && d ≤ 337) then
    let q := { p with bgLo := p.bgLo <<< 1, bgHi := p.bgHi <<< 1, atLo := p.atLo <<< 1, atHi := p.atHi <<< 1 }
    if (d - 1) % 8 = 0 then
      let load (r : BitVec 16) (b : Byte) : BitVec 16 := (r &&& 0xFF00#16) ||| b.setWidth 16
      { q with
        bgLo := load q.bgLo q.ptLoLatch
        bgHi := load q.bgHi q.ptHiLatch
        atLo := load q.atLo (if q.atLatch.getLsbD 0 then 0xFF else 0)
        atHi := load q.atHi (if q.atLatch.getLsbD 1 then 0xFF else 0) }
    else q
  else p

/-! ## Sprite evaluation (R249 to R251) -/

/-- The sprite height (R225, R250). -/
def Ppu.spriteHeight (p : Ppu) : Nat := if p.ctrl.getLsbD 5 then 16 else 8

/-- `in_range(y)` on line L (R250). -/
def inRange (h line : Nat) (y : Byte) : Bool := decide (y.toNat ≤ line) && decide (line - y.toNat < h)

/-- An OAM byte, the index modulo 256. -/
def Ppu.oamByte (p : Ppu) (i : Nat) : Byte := p.oam[i % 256]'(Nat.mod_lt _ (by decide))

/-- What the first loop of R250 carries. -/
structure EvalScan where
  sec   : Vector Byte 32
  count : Nat
  spr0  : Bool
  k     : Nat   -- OAM reads made
  n     : Nat   -- the sprite looked at next
deriving DecidableEq, Repr

/-- The first loop of R250: copy the first eight sprites in range to secondary OAM. `fuel` bounds the 64 sprites. -/
def evalCopy (p : Ppu) (h line : Nat) : Nat → EvalScan → EvalScan
  | 0, e => e
  | fuel + 1, e =>
    if e.n < 64 && e.count < 8 then
      if inRange h line (p.oamByte (4 * e.n)) then
        let sec1 := e.sec.setIfInBounds (4 * e.count) (p.oamByte (4 * e.n))
        let sec2 := sec1.setIfInBounds (4 * e.count + 1) (p.oamByte (4 * e.n + 1))
        let sec3 := sec2.setIfInBounds (4 * e.count + 2) (p.oamByte (4 * e.n + 2))
        let sec4 := sec3.setIfInBounds (4 * e.count + 3) (p.oamByte (4 * e.n + 3))
        evalCopy p h line fuel
          { sec := sec4, count := e.count + 1, spr0 := e.spr0 || e.n == 0, k := e.k + 4, n := e.n + 1 }
      else evalCopy p h line fuel { e with k := e.k + 1, n := e.n + 1 }
    else e

/-- The second loop of R250: the overflow search, with the hardware's bug that it steps the byte index m too. -/
def evalOverflow (p : Ppu) (h line : Nat) : Nat → Nat → Nat → Nat → Option Nat
  | 0, _, _, _ => none
  | fuel + 1, n, m, k =>
    if n < 64 then
      if inRange h line (p.oamByte (4 * n + m)) then some (64 + 2 * (k + 1))
      else evalOverflow p h line fuel (n + 1) ((m + 1) % 4) (k + 1)
    else none

/-- Sprite evaluation for the next line, as one step at dot 65 (R250). -/
def Ppu.evaluate (p : Ppu) : Ppu :=
  let h := p.spriteHeight
  let e := evalCopy p h p.scanline 64 { sec := p.secOam, count := 0, spr0 := false, k := 0, n := 0 }
  { p with
    secOam := e.sec
    evalCount := e.count
    evalSpr0 := e.spr0
    evalOvfDot := evalOverflow p h p.scanline 64 e.n 0 e.k }

/-- Sprite evaluation that starts with OAMADDR not 0: a draw (R250). -/
def drawnEvaluation (s : State) : State :=
  let e := Config.spriteEval s.draws
  { s with
    draws := s.draws + 1
    ppu := { s.ppu with
      secOam := e.secOam
      evalCount := e.count.val
      evalSpr0 := e.spr0
      evalOvfDot := e.ovfDot } }

/-- Secondary OAM clearing, evaluation and the overflow flag, on lines 0-239 where `rendering` holds (R249 to R251). -/
def spriteEvalDot (s : State) : State :=
  let p := s.ppu
  let d := p.dot
  if p.scanline ≤ 239 then
    let s1 :=
      if 2 ≤ d && d ≤ 64 && d % 2 = 0 then
        { s with ppu := { p with secOam := p.secOam.setIfInBounds (d / 2 - 1) 0xFF } }
      else if d = 65 then
        if p.oamAddr = 0 then { s with ppu := p.evaluate } else drawnEvaluation s
      else s
    if s1.ppu.evalOvfDot = some d then { s1 with ppu := { s1.ppu with spriteOverflow := true } } else s1
  else s

/-! ## Sprite fetch (R252) -/

/-- Byte j of sprite i in secondary OAM. -/
def Ppu.secByte (p : Ppu) (i j : Nat) : Byte := p.secOam[(4 * i + j) % 32]'(Nat.mod_lt _ (by decide))

/-- Whether slot i holds a sprite (R252). -/
def Ppu.slotFull (p : Ppu) (i : Nat) : Bool := decide (p.scanline ≤ 239) && decide (i < p.evalCount)

/-- The sprite pattern address formulas of R252, low plane; the PPU masks an address to 14 bits (R197). -/
def spritePatternAddr (ctrl tile : Byte) (row : PpuAddr) : PpuAddr :=
  if ctrl.getLsbD 5 then
    (flag 14 (tile.getLsbD 0) <<< 12) ||| ((tile &&& 0xFE#8).setWidth 14 <<< 4)
      ||| ((row &&& 8#14) <<< 1) ||| (row &&& 7#14)
  else (flag 14 (ctrl.getLsbD 3) <<< 12) ||| (tile.setWidth 14 <<< 4) ||| row

/-- The pattern address of slot i, low plane (R252). A row out of range is computed modulo 2^14 (log 20). -/
def Ppu.slotAddr (p : Ppu) (i : Nat) : PpuAddr :=
  if p.slotFull i then
    let r : PpuAddr := BitVec.ofNat 14 p.scanline - (p.secByte i 0).setWidth 14
    let row := if (p.secByte i 2).getLsbD 7 then BitVec.ofNat 14 (p.spriteHeight - 1) - r else r
    spritePatternAddr p.ctrl (p.secByte i 1) row
  else spritePatternAddr p.ctrl 0xFF 0

/-- The pattern byte a slot loads: flipped horizontally by attribute bit 6; an empty slot loads transparent data (R252). -/
def Ppu.slotByte (p : Ppu) (i : Nat) (b : Byte) : Byte :=
  if p.slotFull i then (if (p.secByte i 2).getLsbD 6 then reverseByte b else b) else 0

/-- Load the low pattern byte of slot i's unit (R252). -/
def Ppu.loadLow (p : Ppu) (i : Nat) (b : Byte) : Ppu :=
  let u := p.units[i % 8]'(Nat.mod_lt _ (by decide))
  { p with units := p.units.setIfInBounds i { u with lo := p.slotByte i b } }

/-- Load the high pattern byte, the attributes and the X of slot i's unit (R252). That the last two are loaded at the high
byte's dot is the model's choice: the rule times only the pattern bytes (log 33). -/
def Ppu.loadHigh (p : Ppu) (i : Nat) (b : Byte) : Ppu :=
  let u := p.units[i % 8]'(Nat.mod_lt _ (by decide))
  { p with
    units := p.units.setIfInBounds i { u with hi := p.slotByte i b, attr := p.secByte i 2, x := p.secByte i 3 } }

/-- The sprites found become the next line's at dot 320; none after the pre-render line (R252). -/
def Ppu.handSprites (p : Ppu) : Ppu :=
  if p.dot = 320 then
    if p.scanline ≤ 239 then { p with lineCount := p.evalCount, lineSpr0 := p.evalSpr0 }
    else { p with lineCount := 0, lineSpr0 := false }
  else p

/-- The memory access of a dot in slot i: `k` counts the slot's dots from 0 (R252). The high plane lies 8 above the low one, as
in R244 (log 20). -/
def slotFetch (i k : Nat) (s : State) : State :=
  if k = 0 ∨ k = 2 then fetch s.ppu.ntAddr (fun _ q => q) s
  else if k = 4 then fetch (s.ppu.slotAddr i) (fun b q => q.loadLow i b) s
  else if k = 6 then fetch (s.ppu.slotAddr i ||| 8#14) (fun b q => q.loadHigh i b) s
  else s

/-- The sprite fetches of dots 257-320 where `rendering` holds (R252), and OAMADDR held at 0 (R228). -/
def spriteFetchDot (s : State) : State :=
  let d := s.ppu.dot
  if 257 ≤ d && d ≤ 320 then
    let s1 := slotFetch ((d - 257) / 8) ((d - 257) % 8) s
    { s1 with ppu := { s1.ppu with oamAddr := 0 }.handSprites }
  else s

/-! ## Pixel output (R253 to R256) -/

/-- The background pixel at x, 0 if transparent or hidden (R253). -/
def Ppu.bgPixel (p : Ppu) (x : Nat) : BitVec 4 :=
  if !p.mask.getLsbD 3 || (decide (x < 8) && !p.mask.getLsbD 1) then 0
  else
    let f := 15 - p.fineX.toNat
    let lo := flag 4 (p.bgLo.getLsbD f)
    let hi := flag 4 (p.bgHi.getLsbD f)
    let pix := (hi <<< 1) ||| lo
    if pix = 0 then 0
    else (flag 4 (p.atHi.getLsbD f) <<< 3) ||| (flag 4 (p.atLo.getLsbD f) <<< 2) ||| pix

/-- A sprite unit's two pixel bits at x, 0 outside its eight columns (R253). -/
def SpriteUnit.pixel (u : SpriteUnit) (x : Nat) : BitVec 2 :=
  if u.x.toNat ≤ x && x - u.x.toNat ≤ 7 then
    let c := x - u.x.toNat
    (flag 2 (u.hi.getLsbD (7 - c)) <<< 1) ||| flag 2 (u.lo.getLsbD (7 - c))
  else 0

/-- Whether sprites show at x (R253). -/
def Ppu.spritesShow (p : Ppu) (x : Nat) : Bool := p.mask.getLsbD 4 && !(decide (x < 8) && !p.mask.getLsbD 2)

/-- The first unit of a list with an opaque pixel at x: its palette index and its priority bit (R253). -/
def firstOpaque (x : Nat) : List SpriteUnit → Option (BitVec 5 × Bool)
  | [] => none
  | u :: us =>
    if u.pixel x = 0 then firstOpaque x us
    else some (0x10#5 ||| ((u.attr &&& 3#8).setWidth 5 <<< 2) ||| (u.pixel x).setWidth 5, u.attr.getLsbD 5)

/-- The sprite pixel at x, if there is one (R253). -/
def Ppu.spritePixel (p : Ppu) (x : Nat) : Option (BitVec 5 × Bool) :=
  if p.spritesShow x then firstOpaque x (p.units.toList.take p.lineCount) else none

/-- The palette index of the pixel at x (R253). -/
def Ppu.pixelIndex (p : Ppu) (x : Nat) : BitVec 5 :=
  let bg := p.bgPixel x
  match p.spritePixel x with
  | none => bg.setWidth 5
  | some (spr, behind) => if bg ≠ 0 && behind then bg.setWidth 5 else spr

/-- Whether the dot of pixel x hits sprite 0 (R255). -/
def Ppu.hitsSprite0 (p : Ppu) (x : Nat) : Bool :=
  p.lineSpr0 && decide (p.units[0].pixel x ≠ 0) && decide (p.bgPixel x ≠ 0)
    && p.mask.getLsbD 3 && p.mask.getLsbD 4
    && !(decide (x < 8) && (!p.mask.getLsbD 1 || !p.mask.getLsbD 2)) && decide (x ≠ 255)

/-- The colour index put out at x: rendered (R253), or the backdrop or `palette[v]` with rendering off (R254). -/
def Ppu.pixelColour (p : Ppu) (x : Nat) : BitVec 6 :=
  let c :=
    if p.renderingEnabled then p.palette[paletteEntry (0x3F00#14 ||| (p.pixelIndex x).setWidth 14)]
    else if 0x3F00 ≤ (p.v.setWidth 14).toNat then p.palette[paletteEntry (p.v.setWidth 14)]
    else p.palette[0]
  if p.mask.getLsbD 0 then c &&& 0x30#6 else c

/-- The frame entry: the emphasis bits above the colour (R253, R256). -/
def Ppu.pixelEntry (p : Ppu) (x : Nat) : BitVec 9 := ((p.mask >>> 5).setWidth 9 <<< 6) ||| (p.pixelColour x).setWidth 9

/-- Store one entry of the frame being drawn (R256). -/
def setPixel (f : Frame) (y x : Nat) (e : BitVec 9) : Frame :=
  let row := f[y % 240]'(Nat.mod_lt _ (by decide))
  f.setIfInBounds y (row.setIfInBounds x e)

/-- Pixel output at dots 1-256 of lines 0-239 (R238, R253 to R255). -/
def Ppu.output (p : Ppu) : Ppu :=
  if p.scanline ≤ 239 && 1 ≤ p.dot && p.dot ≤ 256 then
    let x := p.dot - 1
    { p with
      frame := setPixel p.frame p.scanline x (p.pixelEntry x)
      sprite0Hit := p.sprite0Hit || (p.renderingEnabled && p.hitsSprite0 x) }
  else p

/-! ## Frame timing (R237 to R242, R257) -/

/-- The vblank flag set at (241, 1) unless suppressed (R239, R240); the flags cleared, the warm-up ended and the frame
published at (261, 1) (R241, R257). -/
def Ppu.frameEvents (p : Ppu) : Ppu :=
  if p.scanline = 241 && p.dot = 1 then { p with vblankFlag := p.vblankFlag || !p.vblSuppress }
  else if p.scanline = 261 && p.dot = 1 then
    { p with
      vblankFlag := false
      sprite0Hit := false
      spriteOverflow := false
      warmup := false
      vblSuppress := false
      published := some p.frame
      frames := p.frames + 1 }
  else p

/-- The next position: the 262 by 341 grid, with the odd frame's skipped dot (R237, R242). An overflow dot found on one
line is not carried to the next (R251). -/
def Ppu.advance (p : Ppu) : Ppu :=
  if p.scanline = 261 && p.dot = 339 && p.oddFrame && p.renderingEnabled then
    { p with scanline := 0, dot := 0, oddFrame := false, evalOvfDot := none }
  else if p.dot = 340 then
    if p.scanline = 261 then { p with scanline := 0, dot := 0, oddFrame := !p.oddFrame, evalOvfDot := none }
    else { p with scanline := p.scanline + 1, dot := 0, evalOvfDot := none }
  else { p with dot := p.dot + 1 }

/-- The fetch, shift, scroll and sprite work of a dot where `rendering` holds; elsewhere the address bus shows v
(R223, R258). -/
def renderDot (s : State) : State :=
  if s.ppu.rendering then
    let s1 := bgFetch s
    let s2 := { s1 with ppu := s1.ppu.shiftRegs }
    let s3 := spriteFetchDot (spriteEvalDot s2)
    { s3 with ppu := s3.ppu.scroll }
  else { s with ppu := { s.ppu with abus := s.ppu.v.setWidth 14 } }

/-- One PPU dot, followed by the mapper's look at the address bus (R237, R258). -/
def ppuDot (s : State) : State :=
  let s1 := renderDot { s with ppu := s.ppu.frameEvents }
  ppuObserve { s1 with ppu := s1.ppu.output.advance }

/-- `n` PPU dots. -/
def ppuDots : Nat → State → State
  | 0, s => s
  | n + 1, s => ppuDots n (ppuDot s)

end Sys2Proof.Machine
end

