-- ==== Sys2Proof/Machine/PpuRegs.lean ====
section
/-!
DEFINITION. The PPU's eight registers as the CPU reads and writes them (62_ppu.md section 2). A read leaves the byte read on
the CPU data bus (`cpuBus`, R40) and in the PPU's own latch (`ioLatch`, R235).
-/

namespace Sys2Proof.Machine

/-- The byte a read leaves on the CPU data bus (R40). -/
def drive (v : Byte) (s : State) : State := { s with cpuBus := v }

/-- A PPU register read leaves its byte on the CPU data bus and in the PPU's latch (R224, R235). -/
def ppuDrive (v : Byte) (s : State) : State := { s with cpuBus := v, ppu := { s.ppu with ioLatch := v } }

/-- The interrupt an instruction's poll finds (R182). -/
def pollResult (s : State) : Option IntKind :=
  if s.nmiPending then some .nmi
  else if s.irqLine && !s.regs.p.i then some .irq
  else none

/-! ## PPUSTATUS (R227, R240) -/

/-- The byte PPUSTATUS reads as, with the given bit 7 (R227). -/
def Ppu.statusByte (p : Ppu) (vblank : Bool) : Byte :=
  (flag 8 vblank <<< 7) ||| (flag 8 p.sprite0Hit <<< 6) ||| (flag 8 p.spriteOverflow <<< 5) ||| (p.ioLatch &&& 0x1F#8)

/-- Whether the next dot to run lies in the vblank race window (R240). -/
def Ppu.inRaceWindow (p : Ppu) : Bool := p.scanline == 241 && decide (p.dot ≤ 3)

/-- The frame's NMI after a race-window read with PPUCTRL bit 7 set: it occurs or not, as drawn (R240, log 11). -/
def raceNmi (b : Bool) (s : State) : State :=
  let s1 := { s with nmiPending := b, nmiEdges := s.nmiEdges + (b && !s.nmiPending).toNat }
  if s.intNext = some .nmi then { s1 with intNext := pollResult s1 } else s1

/-- A PPUSTATUS read (R227; R240 in the race window). -/
def readStatus (s : State) : State :=
  if s.ppu.inRaceWindow then
    let n := s.draws
    let v := s.ppu.statusByte (Config.raceBit n)
    let s1 := ppuDrive v
      { s with draws := n + 1, ppu := { s.ppu with vblankFlag := false, w := false, vblSuppress := true } }
    if s.ppu.ctrl.getLsbD 7 then raceNmi (Config.raceNmi n) s1 else s1
  else
    ppuDrive (s.ppu.statusByte s.ppu.vblankFlag) { s with ppu := { s.ppu with vblankFlag := false, w := false } }

/-! ## OAMDATA (R229) -/

/-- The byte OAMDATA reads as outside rendering: attribute bytes have no bits 4 to 2 (R229). -/
def Ppu.oamDataByte (p : Ppu) : Byte :=
  let b := p.oam[p.oamAddr.toFin]
  if p.oamAddr &&& 3#8 = 2#8 then b &&& 0xE3#8 else b

/-- An OAMDATA read (R229). -/
def readOamData (s : State) : State :=
  if s.ppu.rendering then ppuDrive (Config.oamRead s.draws) { s with draws := s.draws + 1 }
  else ppuDrive s.ppu.oamDataByte s

/-- An OAMDATA write (R229). -/
def Ppu.writeOamData (v : Byte) (p : Ppu) : Ppu :=
  if p.rendering then { p with oamAddr := p.oamAddr + 4 }
  else { p with oam := p.oam.set p.oamAddr.toNat v p.oamAddr.isLt, oamAddr := p.oamAddr + 1 }

/-! ## PPUDATA (R232 to R234) -/

/-- The step of v after a PPUDATA access (R225, R232). -/
def Ppu.stepV (p : Ppu) : Ppu := { p with v := p.v + (if p.ctrl.getLsbD 2 then 32 else 1) }

/-- The increments of v that a PPUDATA access makes while rendering (R234). -/
def Ppu.glitchV (p : Ppu) : Ppu := { p with v := yInc (coarseXInc p.v) }

/-- A PPUDATA read: buffered below the palette, direct in it (R233); while rendering the new buffer is a draw (R234). -/
def readData (s : State) : State :=
  let p := s.ppu
  if p.rendering then
    ppuDrive p.readBuffer
      { s with draws := s.draws + 1, ppu := { p.glitchV with readBuffer := Config.bufferRead s.draws } }
  else
    let a : PpuAddr := p.v.setWidth 14
    if a.toNat < 0x3F00 then
      ppuDrive p.readBuffer { s with ppu := { p.stepV with readBuffer := ppuRead s a } }
    else
      let c := p.palette[paletteEntry a] &&& (if p.mask.getLsbD 0 then 0x30#6 else 0x3F#6)
      ppuDrive (c.setWidth 8 ||| (p.ioLatch &&& 0xC0#8))
        { s with ppu := { p.stepV with readBuffer := ppuRead s (a - 0x1000#14) } }

/-- A PPUDATA write (R232); while rendering it is dropped (R234). -/
def writeData (v : Byte) (s : State) : State :=
  let p := s.ppu
  if p.rendering then { s with ppu := p.glitchV }
  else
    let a : PpuAddr := p.v.setWidth 14
    let s1 := { s with ppu := p.stepV }
    if a.toNat < 0x3F00 then ppuWrite a v s1
    else { s1 with ppu := { s1.ppu with palette := s1.ppu.palette.set (paletteEntry a).val (v.setWidth 6) } }

/-! ## The write-only registers (R225, R226, R228, R230, R231) -/

/-- A PPUCTRL write (R225, R236). -/
def Ppu.writeCtrl (v : Byte) (p : Ppu) : Ppu :=
  if p.warmup then p
  else { p with ctrl := v, t := (p.t &&& ~~~0x0C00#15) ||| ((v &&& 3#8).setWidth 15 <<< 10) }

/-- A PPUMASK write (R226, R236). -/
def Ppu.writeMask (v : Byte) (p : Ppu) : Ppu := if p.warmup then p else { p with mask := v }

/-- A PPUSCROLL write, first or second (R230, R236). -/
def Ppu.writeScroll (v : Byte) (p : Ppu) : Ppu :=
  if p.warmup then p
  else if p.w then
    { p with
      t := (p.t &&& ~~~0x73E0#15) ||| ((v &&& 7#8).setWidth 15 <<< 12) ||| ((v &&& 0xF8#8).setWidth 15 <<< 2)
      w := false }
  else
    { p with t := (p.t &&& ~~~0x001F#15) ||| (v >>> 3).setWidth 15, fineX := v.setWidth 3, w := true }

/-- A PPUADDR write, first or second (R231, R236). -/
def Ppu.writeAddr (v : Byte) (p : Ppu) : Ppu :=
  if p.warmup then p
  else if p.w then
    let t := (p.t &&& 0x7F00#15) ||| v.setWidth 15
    { p with t := t, v := t, w := false }
  else { p with t := (p.t &&& 0x00FF#15) ||| ((v &&& 0x3F#8).setWidth 15 <<< 8), w := true }

/-! ## The eight registers (R224) -/

/-- A read of PPU register r, 0 to 7: the write-only ones read as the latch (R224, R235). -/
def ppuRegRead (r : BitVec 3) (s : State) : State :=
  if r = 2#3 then readStatus s
  else if r = 4#3 then readOamData s
  else if r = 7#3 then readData s
  else ppuDrive s.ppu.ioLatch s

/-- A write of PPU register r, 0 to 7: the latch first, then the register (R224). -/
def ppuRegWrite (r : BitVec 3) (v : Byte) (s : State) : State :=
  let p := { s.ppu with ioLatch := v }
  if r = 0#3 then { s with ppu := p.writeCtrl v }
  else if r = 1#3 then { s with ppu := p.writeMask v }
  else if r = 2#3 then { s with ppu := p }
  else if r = 3#3 then { s with ppu := { p with oamAddr := v } }
  else if r = 4#3 then { s with ppu := p.writeOamData v }
  else if r = 5#3 then { s with ppu := p.writeScroll v }
  else if r = 6#3 then { s with ppu := p.writeAddr v }
  else writeData v { s with ppu := p }

end Sys2Proof.Machine
end

