-- ==== Sys2Proof/Machine/Bus.lean ====
section
/-!
DEFINITION. The CPU bus: one access of one cycle, routed to its one handler (R44, R196), with the handler's side effects
(R52). Every access leaves the byte moved in `cpuBus` (R40), so the byte a read gives is the `cpuBus` it leaves.
-/

namespace Sys2Proof.Machine

/-- A work RAM byte: $0000-$1FFF mirror 2 KiB, and an unwritten byte is a power-on draw (R196, R199, R300). -/
def wramByte (s : State) (a : Word) : Byte := (s.wram.get? (a.toNat % 2048)).getD (Config.ramInit (a.toNat % 2048))

/-! ## Controller ports (R201, R202) -/

/-- The bit a port read shifts out (R202). -/
def Controller.bit (strobe : Bool) (c : Controller) : Bool := if strobe then c.buttons.getLsbD 0 else c.shift.getLsbD 0

/-- A port whose shift register is reloaded from its buttons (R201). -/
def Controller.reload (c : Controller) : Controller := { c with shift := c.buttons }

/-- A port after a bit has been shifted out (R202). -/
def Controller.shifted (c : Controller) : Controller := { c with shift := (c.shift >>> 1) ||| 0x80 }

/-- Both shift registers reloaded: at a write that leaves the strobe on, and while it is on at every read of a port (R201,
log 21). -/
def reloadPorts (s : State) : State := { s with port0 := s.port0.reload, port1 := s.port1.reload }

/-- The byte a port read gives: bits 7 to 5 are open bus (R202). -/
def portByte (c : Controller) (s : State) : Byte := (s.cpuBus &&& 0xE0#8) ||| flag 8 (c.bit s.strobe)

/-- A read of $4016 (R201, R202). -/
def readPort0 (s : State) : State :=
  let s1 := drive (portByte s.port0 s) s
  if s.strobe then reloadPorts s1 else { s1 with port0 := s.port0.shifted }

/-- A read of $4017 (R201, R202). -/
def readPort1 (s : State) : State :=
  let s1 := drive (portByte s.port1 s) s
  if s.strobe then reloadPorts s1 else { s1 with port1 := s.port1.shifted }

/-- A write of $4016: the strobe, and both shift registers reloaded while it is on (R201). -/
def writeStrobe (v : Byte) (s : State) : State :=
  if v.getLsbD 0 then reloadPorts { s with strobe := true } else { s with strobe := false }

/-! ## The routing (R196) -/

/-- `Bus.read(a)`: what no device drives reads as the last byte on the bus (R196, R198). -/
def readAccess (a : Word) (s : State) : State :=
  if a.toNat < 0x2000 then drive (wramByte s a) s
  else if a.toNat < 0x4000 then ppuRegRead (a.setWidth 3) s
  else if a = 0x4015#16 then readApuStatus s
  else if a = 0x4016#16 then readPort0 s
  else if a = 0x4017#16 then readPort1 s
  else if a.toNat < 0x4020 then s
  else drive ((s.cart.cpuRead s.params a).getD s.cpuBus) s

/-- `Bus.write(a, v)` but for the byte left on the bus (R196). -/
def routeWrite (a : Word) (v : Byte) (s : State) : State :=
  if a.toNat < 0x2000 then { s with wram := s.wram.set (a.toNat % 2048) v }
  else if a.toNat < 0x4000 then ppuRegWrite (a.setWidth 3) v s
  else if a = 0x4014#16 then { s with oamDma := some v }
  else if a = 0x4015#16 then writeApuEnables v s
  else if a = 0x4016#16 then writeStrobe v s
  else if a.toNat < 0x4018 then { s with apu := s.apu.write (isPut s) (a.setWidth 5) v }
  else if a.toNat < 0x4020 then s
  else { s with cart := s.cart.cpuWrite s.params a v }

/-- `Bus.write(a, v)` (R196). -/
def writeAccess (a : Word) (v : Byte) (s : State) : State := drive v (routeWrite a v s)

end Sys2Proof.Machine
end

