-- ==== Sys2Proof/Machine/Clock.lean ====
section
/-!
DEFINITION. One CPU cycle in its fixed order (R286), the two DMA units, which take cycles in place of a CPU read (R203 to
R205), and a CPU read or write: any DMA first, then the cycle.
-/

namespace Sys2Proof.Machine

/-- `mapper_irq` and the APU's two sources together (R179). -/
def irqSources (s : State) : Bool := s.apu.frameIrq || s.apu.dmcIrq || s.cart.irqPending

/-- The PPU's NMI output (R243). -/
def nmiOutput (s : State) : Bool := s.ppu.vblankFlag && s.ppu.ctrl.getLsbD 7

/-- The sampling of the interrupt inputs at a cycle's end (R180); the edges and the cycles with an active line are counted
(log 34). -/
def sampleInterrupts (s : State) : State :=
  { s with
    nmiPending := s.nmiPending || (nmiOutput s && !s.nmiPrev)
    nmiPrev := nmiOutput s
    irqLine := irqSources s
    nmiEdges := s.nmiEdges + (nmiOutput s && !s.nmiPrev).toNat
    irqCycles := s.irqCycles + (irqSources s).toNat }

/-- What of a CPU cycle follows its bus access (R286, steps 3 to 6). -/
def cycleEnd (s : State) : State :=
  let s1 := sampleInterrupts (apuCycle (ppuDots (3 - s.params.ppuPhase.val) s))
  { s1 with cpuCycle := s1.cpuCycle + 1 }

/-- One CPU cycle, around its bus access (R286). -/
def cycle (access : State → State) (s : State) : State := cycleEnd (access (ppuDots s.params.ppuPhase.val s))

/-! ## DMC DMA (R205, R279) -/

/-- The access of a DMC DMA's get cycle: the byte goes to the sample buffer (R205, R279). -/
def dmcAccess (s : State) : State :=
  let s1 := readAccess s.apu.dmc.address s
  dmcDone s1.cpuBus s1

/-- A DMC DMA outside an OAM DMA, the CPU's pending read being at `a`: halt, dummy, alignment if needed, get (R205). -/
def runDmc (a : Word) (s : State) : State :=
  let s1 := cycle (readAccess a) (cycle (readAccess a) s)
  let s2 := if isPut s1 then cycle (readAccess a) s1 else s1
  cycle dmcAccess s2

/-! ## OAM DMA (R204) -/

/-- A DMC read in place of an OAM DMA's get cycle, then an alignment cycle (R205). -/
def dmcSlot (a : Word) (s : State) : State :=
  if s.dmcDma then cycle (readAccess a) (cycle dmcAccess s) else s

/-- A get cycle and a put cycle of an OAM DMA, after a DMC read that stands before them; at most two can (R204, R205). -/
def oamByte (a src : Word) (s : State) : State :=
  let s1 := cycle (readAccess src) (dmcSlot a (dmcSlot a s))
  cycle (writeAccess 0x2004 s1.cpuBus) s1

/-- The bytes i to i + n - 1 of an OAM DMA from a page (R204). -/
def oamBytes (a : Word) (page : Byte) : Nat → Nat → State → State
  | 0, _, s => s
  | n + 1, i, s => oamBytes a page n (i + 1) (oamByte a (w16 page (BitVec.ofNat 8 i)) s)

/-- An OAM DMA, the CPU's pending read being at `a`: halt, alignment if the next cycle is a put cycle, 256 bytes (R204). -/
def runOam (a : Word) (page : Byte) (s : State) : State :=
  let s1 := cycle (readAccess a) { s with oamDma := none }
  let s2 := if isPut s1 then cycle (readAccess a) s1 else s1
  oamBytes a page 256 0 s2

/-- A requested OAM DMA, before a CPU read at `a` (R204). -/
def serviceOam (a : Word) (s : State) : State :=
  match s.oamDma with
  | some page => runOam a page s
  | none => s

/-- A requested DMC DMA, before a CPU read at `a` (R205). -/
def serviceDmc (a : Word) (s : State) : State := if s.dmcDma then runDmc a s else s

/-- The DMA cycles that come before a CPU read at `a` (R203). -/
def serviceDma (a : Word) (s : State) : State := serviceDmc a (serviceOam a s)

/-! ## CPU reads and writes (R16, R203) -/

/-- `Read(a)` and `DummyRead(a)`: one CPU read cycle, after the DMA that waits for it. The byte is the result's `cpuBus`. -/
def cpuRead (a : Word) (s : State) : State := cycle (readAccess a) (serviceDma a s)

/-- `Write(a, v)`: one CPU write cycle, which no DMA delays (R203). -/
def cpuWrite (a : Word) (v : Byte) (s : State) : State := cycle (writeAccess a v) s

end Sys2Proof.Machine
end

