-- ==== Sys2Proof/Machine/Flags.lean ====
section
/-!
DEFINITION. Register and flag computations: the byte form of P (R26, R27), `setNZ` (R15), ADD and COMPARE (R104 to R106) and
what each operation does to the registers, given its operand. None of them touches memory or time.
-/

namespace Sys2Proof.Machine

/-! ## The status byte -/

/-- `Pbyte(b)`, the byte pushed for P (R26). -/
def pByte (b : Bool) (p : Flags) : Byte :=
  (flag 8 p.n <<< 7) ||| (flag 8 p.v <<< 6) ||| 0x20#8 ||| (flag 8 b <<< 4) ||| (flag 8 p.d <<< 3)
    ||| (flag 8 p.i <<< 2) ||| (flag 8 p.z <<< 1) ||| flag 8 p.c

/-- P from a pulled byte; bits 5 and 4 are ignored (R27). -/
def flagsOf (v : Byte) : Flags where
  n := v.getLsbD 7
  v := v.getLsbD 6
  d := v.getLsbD 3
  i := v.getLsbD 2
  z := v.getLsbD 1
  c := v.getLsbD 0

/-! ## Helpers (R15, R105, R106) -/

/-- `setNZ(v)` (R15). -/
def setNZ (v : Byte) (r : Regs) : Regs := { r with p := { r.p with n := v.msb, z := v == 0 } }

/-- `ADD(m)` (R105), in binary whatever D holds (R32). -/
def add (m : Byte) (r : Regs) : Regs :=
  let s := r.a.toNat + m.toNat + r.p.c.toNat
  let v := BitVec.ofNat 8 s
  setNZ v { r with a := v, p := { r.p with v := ((r.a ^^^ v) &&& (m ^^^ v)).msb, c := decide (0xFF < s) } }

/-- `COMPARE(reg, m)` (R106). -/
def compareWith (reg m : Byte) (r : Regs) : Regs := setNZ (reg - m) { r with p := { r.p with c := decide (m ≤ reg) } }

/-! ## Read-class operations, of the operand M -/

/-- LDA (R88). -/
def opLda (m : Byte) (r : Regs) : Regs := setNZ m { r with a := m }
/-- LDX (R89). -/
def opLdx (m : Byte) (r : Regs) : Regs := setNZ m { r with x := m }
/-- LDY (R90). -/
def opLdy (m : Byte) (r : Regs) : Regs := setNZ m { r with y := m }
/-- ADC (R107). -/
def opAdc (m : Byte) (r : Regs) : Regs := add m r
/-- SBC, and USBC (R108, R165). -/
def opSbc (m : Byte) (r : Regs) : Regs := add (~~~m) r
/-- AND (R109). -/
def opAnd (m : Byte) (r : Regs) : Regs := setNZ (r.a &&& m) { r with a := r.a &&& m }
/-- ORA (R110). -/
def opOra (m : Byte) (r : Regs) : Regs := setNZ (r.a ||| m) { r with a := r.a ||| m }
/-- EOR (R111). -/
def opEor (m : Byte) (r : Regs) : Regs := setNZ (r.a ^^^ m) { r with a := r.a ^^^ m }
/-- BIT: N and V come from M, Z from A & M (R112). -/
def opBit (m : Byte) (r : Regs) : Regs :=
  { r with p := { r.p with n := m.getLsbD 7, v := m.getLsbD 6, z := (r.a &&& m) == 0 } }
/-- CMP (R113). -/
def opCmp (m : Byte) (r : Regs) : Regs := compareWith r.a m r
/-- CPX (R114). -/
def opCpx (m : Byte) (r : Regs) : Regs := compareWith r.x m r
/-- CPY (R115). -/
def opCpy (m : Byte) (r : Regs) : Regs := compareWith r.y m r
/-- An unofficial NOP discards its operand (R150). -/
def opNop (_ : Byte) (r : Regs) : Regs := r
/-- LAX (R158). -/
def opLax (m : Byte) (r : Regs) : Regs := setNZ m { r with a := m, x := m }
/-- LAS (R166). -/
def opLas (m : Byte) (r : Regs) : Regs := setNZ (m &&& r.sp) { r with a := m &&& r.sp, x := m &&& r.sp, sp := m &&& r.sp }
/-- ANC (R159). -/
def opAnc (m : Byte) (r : Regs) : Regs :=
  setNZ (r.a &&& m) { r with a := r.a &&& m, p := { r.p with c := (r.a &&& m).msb } }
/-- ALR (R160). -/
def opAlr (m : Byte) (r : Regs) : Regs :=
  let t := r.a &&& m
  setNZ (t >>> 1) { r with a := t >>> 1, p := { r.p with c := t.getLsbD 0 } }
/-- ARR: C is bit 6 of the result, V bit 6 xor bit 5 (R161). -/
def opArr (m : Byte) (r : Regs) : Regs :=
  let v := (flag 8 r.p.c <<< 7) ||| ((r.a &&& m) >>> 1)
  setNZ v { r with a := v, p := { r.p with c := v.getLsbD 6, v := v.getLsbD 6 ^^ v.getLsbD 5 } }
/-- ANE, with the drawn ANE_MAGIC (R162). -/
def opAne (magic m : Byte) (r : Regs) : Regs :=
  let v := (r.a ||| magic) &&& r.x &&& m
  setNZ v { r with a := v }
/-- LXA, with the drawn LXA_MAGIC (R163). -/
def opLxa (magic m : Byte) (r : Regs) : Regs :=
  let v := (r.a ||| magic) &&& m
  setNZ v { r with a := v, x := v }
/-- SBX: a compare of A & X whose result goes to X (R164). -/
def opSbx (m : Byte) (r : Regs) : Regs :=
  let t := r.a &&& r.x
  setNZ (t - m) { r with x := t - m, p := { r.p with c := decide (m ≤ t) } }

/-! ## Modify functions of the RMW class, from M and the old carry, and their carries out -/

/-- INC (R116). -/
def modInc (_ : Bool) (m : Byte) : Byte := m + 1
/-- DEC (R117). -/
def modDec (_ : Bool) (m : Byte) : Byte := m - 1
/-- ASL (R122). -/
def modAsl (_ : Bool) (m : Byte) : Byte := m <<< 1
/-- LSR (R123). -/
def modLsr (_ : Bool) (m : Byte) : Byte := m >>> 1
/-- ROL (R124). -/
def modRol (c : Bool) (m : Byte) : Byte := (m <<< 1) ||| flag 8 c
/-- ROR (R125). -/
def modRor (c : Bool) (m : Byte) : Byte := (flag 8 c <<< 7) ||| (m >>> 1)

/-- Set C. -/
def setC (b : Bool) (r : Regs) : Regs := { r with p := { r.p with c := b } }

/-! ## What an RMW instruction does to the registers, from M and the written result -/

/-- INC and DEC (R116, R117). -/
def opIncDec (_ result : Byte) (r : Regs) : Regs := setNZ result r
/-- ASL and ROL: C is the old bit 7 (R122, R124). -/
def opShiftLeft (m result : Byte) (r : Regs) : Regs := setNZ result (setC (m.getLsbD 7) r)
/-- LSR and ROR: C is the old bit 0 (R123, R125). -/
def opShiftRight (m result : Byte) (r : Regs) : Regs := setNZ result (setC (m.getLsbD 0) r)
/-- SLO (R151). -/
def opSlo (m result : Byte) (r : Regs) : Regs := opOra result (setC (m.getLsbD 7) r)
/-- RLA (R152). -/
def opRla (m result : Byte) (r : Regs) : Regs := opAnd result (setC (m.getLsbD 7) r)
/-- SRE (R153). -/
def opSre (m result : Byte) (r : Regs) : Regs := opEor result (setC (m.getLsbD 0) r)
/-- RRA: the addition uses the rotate's carry (R154). -/
def opRra (m result : Byte) (r : Regs) : Regs := add result (setC (m.getLsbD 0) r)
/-- DCP (R155). -/
def opDcp (_ result : Byte) (r : Regs) : Regs := compareWith r.a result r
/-- ISC (R156). -/
def opIsc (_ result : Byte) (r : Regs) : Regs := add (~~~result) r

/-! ## Implied operations -/

/-- TAX (R94). -/
def opTax (r : Regs) : Regs := setNZ r.a { r with x := r.a }
/-- TAY (R95). -/
def opTay (r : Regs) : Regs := setNZ r.a { r with y := r.a }
/-- TXA (R96). -/
def opTxa (r : Regs) : Regs := setNZ r.x { r with a := r.x }
/-- TYA (R97). -/
def opTya (r : Regs) : Regs := setNZ r.y { r with a := r.y }
/-- TSX (R98). -/
def opTsx (r : Regs) : Regs := setNZ r.sp { r with x := r.sp }
/-- TXS sets no flag (R99). -/
def opTxs (r : Regs) : Regs := { r with sp := r.x }
/-- INX (R118). -/
def opInx (r : Regs) : Regs := setNZ (r.x + 1) { r with x := r.x + 1 }
/-- INY (R119). -/
def opIny (r : Regs) : Regs := setNZ (r.y + 1) { r with y := r.y + 1 }
/-- DEX (R120). -/
def opDex (r : Regs) : Regs := setNZ (r.x - 1) { r with x := r.x - 1 }
/-- DEY (R121). -/
def opDey (r : Regs) : Regs := setNZ (r.y - 1) { r with y := r.y - 1 }
/-- A shift of the accumulator: `f` the modify function, `g` the register effect (R122 to R125). -/
def opAcc (f : Bool → Byte → Byte) (g : Byte → Byte → Regs → Regs) (r : Regs) : Regs :=
  g r.a (f r.p.c r.a) { r with a := f r.p.c r.a }
/-- CLC (R141). -/
def opClc (r : Regs) : Regs := { r with p := { r.p with c := false } }
/-- SEC (R142). -/
def opSec (r : Regs) : Regs := { r with p := { r.p with c := true } }
/-- CLI (R143). -/
def opCli (r : Regs) : Regs := { r with p := { r.p with i := false } }
/-- SEI (R144). -/
def opSei (r : Regs) : Regs := { r with p := { r.p with i := true } }
/-- CLV (R145). -/
def opClv (r : Regs) : Regs := { r with p := { r.p with v := false } }
/-- CLD (R146). -/
def opCld (r : Regs) : Regs := { r with p := { r.p with d := false } }
/-- SED (R147). -/
def opSed (r : Regs) : Regs := { r with p := { r.p with d := true } }
/-- NOP (R148). -/
def opNone (r : Regs) : Regs := r

end Sys2Proof.Machine
end

