-- ==== Sys2Proof/Machine/Ops.lean ====
section
/-!
DEFINITION. The named operations an instruction is made of: fetching at PC, the interrupt poll, the stack, entering an
interrupt handler and returning from one, the reset sequence, and the strict-mode check of an unofficial opcode.
-/

namespace Sys2Proof.Machine

/-- Change the registers. -/
def State.mapRegs (f : Regs → Regs) (s : State) : State := { s with regs := f s.regs }

/-- `PC <- a`. -/
def State.jump (a : Word) (s : State) : State := { s with regs := { s.regs with pc := a } }

/-- `S <- v`. -/
def State.setSp (v : Byte) (s : State) : State := { s with regs := { s.regs with sp := v } }

/-! ## Reads at PC -/

/-- `Read(PC); PC <- PC +16 1` (R23, R48). -/
def readPc (s : State) : State :=
  let s1 := cpuRead s.regs.pc s
  s1.jump (s1.regs.pc + 1)

/-- `DummyRead(PC)`. -/
def dummyPc (s : State) : State := cpuRead s.regs.pc s

/-! ## The interrupt poll (R182) -/

/-- The poll at the end of an instruction's second-to-last cycle (R182). -/
def poll (s : State) : State := { s with intNext := pollResult s }

/-! ## The stack (R16, R22) -/

/-- `$0100 | S` (R22). -/
def stackAddr (sp : Byte) : Word := 0x0100#16 ||| zext16 sp

/-- `DummyRead($0100 | S)`. -/
def dummyStack (s : State) : State := cpuRead (stackAddr s.regs.sp) s

/-- `push(v)` (R16). -/
def push (v : Byte) (s : State) : State :=
  let s1 := cpuWrite (stackAddr s.regs.sp) v s
  s1.setSp (s1.regs.sp - 1)

/-- `pull()`: the byte is the result's `cpuBus` (R16). -/
def pull (s : State) : State :=
  let s1 := s.setSp (s.regs.sp + 1)
  cpuRead (stackAddr s1.regs.sp) s1

/-- Read a 16-bit address at `a` and `a'`, low byte first, and jump to it (R47). -/
def jumpThrough (a a' : Word) (s : State) : State :=
  let s1 := cpuRead a s
  let s2 := cpuRead a' s1
  s2.jump (w16 s2.cpuBus s1.cpuBus)

/-! ## Entering a handler, and returning (R139, R140, R185) -/

/-- The choice of vector at the start of an interrupt sequence's cycle 5: NMI if the sequence is one, or if an NMI is
pending by then, which is consumed (R184). -/
def chooseVector (nmi : Bool) (s : State) : Word × State :=
  if nmi || s.nmiPending then (0xFFFA#16, { s with nmiPending := false }) else (0xFFFE#16, s)

/-- Cycles 3 to 7 of an interrupt sequence: push PC and P with the given bit 4, set I, jump through the vector; no poll
(R139, R182, R185). -/
def enterInterrupt (b nmi : Bool) (s : State) : State :=
  let s1 := push (hiByte s.regs.pc) s
  let s2 := push (loByte s1.regs.pc) s1
  let (vec, s3) := chooseVector nmi s2
  let s4 := (push (pByte b s3.regs.p) s3).mapRegs opSei
  { jumpThrough vec (vec + 1) s4 with intNext := none }

/-- The NMI or IRQ sequence (R185). -/
def interruptSequence (kind : IntKind) (s : State) : State :=
  enterInterrupt false (kind == .nmi) (dummyPc (dummyPc s))

/-- Cycles 3 to 6 of RTI: pull P, then PC; the poll at the end of cycle 5 sees the restored I (R140, R182, R187). -/
def returnFromInterrupt (s : State) : State :=
  let s1 := pull (dummyStack s)
  let s2 := s1.mapRegs (fun r => { r with p := flagsOf s1.cpuBus })
  let s3 := pull s2
  let s4 := pull (poll s3)
  s4.jump (w16 s4.cpuBus s3.cpuBus)

/-! ## Reset and the halted CPU (R38, R149, R299) -/

/-- A cycle of the reset sequence's suppressed pushes (R299). -/
def suppressedPush (s : State) : State :=
  let s1 := dummyStack s
  s1.setSp (s1.regs.sp - 1)

/-- The reset sequence (R299). -/
def resetSequence (s : State) : State :=
  let s1 := suppressedPush (suppressedPush (suppressedPush (dummyPc (dummyPc s))))
  { jumpThrough 0xFFFC 0xFFFD (s1.mapRegs opSei) with resetPending := false, halted := false, intNext := none }

/-- A step of a halted CPU (R149). -/
def haltedStep (s : State) : State := cpuRead 0xFFFF s

/-! ## Official and unofficial opcodes (R67, R83, R174) -/

/-- An unofficial instruction: after its opcode fetch it is fatal in strict mode, else it goes on with `k` (R83, R174). -/
def unofficial (opcode : Byte) (k : State → State) (s : State) : State :=
  let s1 := readPc s
  if s.params.strictOpcodes then { s1 with fatal := some (.unimplementedOpcode s.regs.pc opcode) } else k s1

/-! ## The instruction at PC (R48, R65) -/

/-- The instruction the machine is about to run, by a look ahead at its fetch cycles; their effects are dropped here, and
`exec` makes them (log 6). JSR's third byte is fetched after its pushes (R128). -/
def fetchInstr (s : State) : Instr :=
  let s1 := readPc s
  let s2 := readPc s1
  let s3 := if s1.cpuBus = 0x20#8 then
      let t := dummyStack s2
      push (loByte t.regs.pc) (push (hiByte t.regs.pc) t)
    else s2
  decodeOp s1.cpuBus s2.cpuBus (dummyPc s3).cpuBus

/-! ## Placing an instruction (`State.withFetchWord`) -/

/-- Put a byte where a fetch at `a` reads it: work RAM, PRG RAM that can be read, or PRG ROM; `none` elsewhere. -/
def placeByte (a : Word) (v : Byte) (s : State) : Option State :=
  if a.toNat < 0x2000 then some { s with wram := s.wram.set (a.toNat % 2048) v }
  else if a.toNat < 0x6000 then none
  else if a.toNat < 0x8000 then
    if s.cart.ramReadable s.params then
      some { s with cart := { s.cart with prgRam := s.cart.prgRam.set (a.toNat % 8192) v } }
    else none
  else some { s with cart := { s.cart with prgRom := s.cart.prgRom.setRom (s.cart.prgOffset a) v } }

/-- Put bytes at `a` and the addresses after it. -/
def placeBytes (a : Word) : List Byte → State → Option State
  | [], s => some s
  | v :: vs, s => (placeByte a v s).bind (placeBytes (a + 1) vs)

end Sys2Proof.Machine
end

