-- ==== Sys2Proof/Machine/Operands.lean ====
section
/-!
DEFINITION. The addressing modes (R68 to R75), each taking the state after the opcode fetch, and the access classes
(R76 to R78), each with the interrupt poll at the end of the instruction's second-to-last cycle (R182).
-/

namespace Sys2Proof.Machine

/-! ## Addressing modes -/

/-- What a non-indexed mode gives: the state after its cycles, and EA. -/
structure Plain where
  st : State
  ea : Word

/-- What an indexed mode gives: the state after its cycles, EA, the uncorrected address `partial`, whether the page was
crossed, and H, the base's high byte (R73, R75). -/
structure Indexed where
  st      : State
  ea      : Word
  raw     : Word
  crossed : Bool
  high    : Byte

/-- ZP (R70). -/
def zp (z : Byte) (s : State) : Plain := { st := readPc s, ea := zext16 z }

/-- ZPX or ZPY, with the index of the given register (R71). -/
def zpIndexed (index : Regs → Byte) (z : Byte) (s : State) : Plain :=
  let s1 := cpuRead (zext16 z) (readPc s)
  { st := s1, ea := zext16 (z + index s1.regs) }

/-- ABS (R72). -/
def abs (lo hi : Byte) (s : State) : Plain := { st := readPc (readPc s), ea := w16 hi lo }

/-- An indexed address from its base (R73, R75). -/
def indexFrom (lo hi index : Byte) (s : State) : Indexed where
  st := s
  ea := w16 hi lo + zext16 index
  raw := w16 hi (lo + index)
  crossed := decide (0xFF < lo.toNat + index.toNat)
  high := hi

/-- ABX or ABY (R73). -/
def absIndexed (index : Regs → Byte) (lo hi : Byte) (s : State) : Indexed :=
  let s1 := readPc (readPc s)
  indexFrom lo hi (index s1.regs) s1

/-- IZX (R74). -/
def izx (z : Byte) (s : State) : Plain :=
  let s1 := cpuRead (zext16 z) (readPc s)
  let p := z + s1.regs.x
  let s2 := cpuRead (zext16 p) s1
  let s3 := cpuRead (zext16 (p + 1)) s2
  { st := s3, ea := w16 s3.cpuBus s2.cpuBus }

/-- IZY (R75). -/
def izy (z : Byte) (s : State) : Indexed :=
  let s1 := readPc s
  let s2 := cpuRead (zext16 z) s1
  let s3 := cpuRead (zext16 (z + 1)) s2
  indexFrom s2.cpuBus s3.cpuBus s3.regs.y s3

/-! ## Register-only instructions (R68) and immediates (R69) -/

/-- An implied or accumulator instruction, from its cycle 2 (R68). -/
def implied (f : Regs → Regs) (s : State) : State := (dummyPc (poll s)).mapRegs f

/-- An immediate instruction, from its cycle 2 (R69). -/
def immediate (f : Byte → Regs → Regs) (m : Byte) (s : State) : State := (readPc (poll s)).mapRegs (f m)

/-! ## The read class (R76) -/

/-- A read-class instruction of a non-indexed mode (R76). -/
def readPlain (f : Byte → Regs → Regs) (e : Plain) : State :=
  let s1 := cpuRead e.ea (poll e.st)
  s1.mapRegs (f s1.cpuBus)

/-- A read-class instruction of an indexed mode: a second read on a page cross (R76). -/
def readIndexed (f : Byte → Regs → Regs) (e : Indexed) : State :=
  let s1 := if e.crossed then cpuRead e.ea (poll (cpuRead e.raw e.st)) else cpuRead e.raw (poll e.st)
  s1.mapRegs (f s1.cpuBus)

/-! ## The write class (R77) -/

/-- A write-class instruction of a non-indexed mode (R77). -/
def writePlain (value : Regs → Byte) (e : Plain) : State := cpuWrite e.ea (value e.st.regs) (poll e.st)

/-- A write-class instruction of an indexed mode (R77). -/
def writeIndexed (value : Regs → Byte) (e : Indexed) : State :=
  let s1 := cpuRead e.raw e.st
  cpuWrite e.ea (value s1.regs) (poll s1)

/-! ## The read-modify-write class (R53, R78) -/

/-- The cycles from the operand read on: read M, write M, write f(M); then the register effect `g` (R78). -/
def modifyAt (f : Bool → Byte → Byte) (g : Byte → Byte → Regs → Regs) (ea : Word) (s : State) : State :=
  let s1 := cpuRead ea s
  let m := s1.cpuBus
  let s2 := cpuWrite ea m s1
  let r := f s2.regs.p.c m
  (cpuWrite ea r (poll s2)).mapRegs (g m r)

/-- An RMW instruction of a non-indexed mode (R78). -/
def rmwPlain (f : Bool → Byte → Byte) (g : Byte → Byte → Regs → Regs) (e : Plain) : State := modifyAt f g e.ea e.st

/-- An RMW instruction of an indexed mode (R78). -/
def rmwIndexed (f : Bool → Byte → Byte) (g : Byte → Byte → Regs → Regs) (e : Indexed) : State :=
  modifyAt f g e.ea (cpuRead e.raw e.st)

/-! ## Draws and the unstable stores (R162, R163, R167) -/

/-- An immediate instruction that takes a draw (R162, R163). -/
def immediateDraw (draw : Nat → Byte) (f : Byte → Byte → Regs → Regs) (m : Byte) (s : State) : State :=
  let s1 := immediate (f (draw s.draws)) m s
  { s1 with draws := s1.draws + 1 }

/-- SHA, SHX, SHY and TAS from the dummy read of `partial` on. `due` is the `cpuCycle` at which the write falls if no DMA
halted the CPU; if one did, the value is a draw. On a page cross the value replaces the address's high byte (R167). -/
def storeHigh (due : Nat) (value : Regs → Byte) (e : Indexed) : State :=
  let s1 := cpuRead e.raw e.st
  let stalled := s1.cpuCycle ≠ due
  let v := if stalled then Config.shaValue s1.draws else value s1.regs &&& (e.high + 1)
  let a := if e.crossed then w16 v (loByte e.ea) else e.ea
  cpuWrite a v (poll { s1 with draws := if stalled then s1.draws + 1 else s1.draws })

end Sys2Proof.Machine
end

