-- ==== Sys2Proof/Machine/Arith.lean ====
section
/-!
DEFINITION. The meanings of the arithmetic, logic and compare instructions (42_arith_logic.md).
-/

namespace Sys2Proof.Machine

/-- $01 ORA IZX (R110). -/
def execOraIzx (z : Byte) (s : State) : Host.Outcome State Fault Refusal :=
  .next (readPlain opOra (izx z (readPc s)))

/-- $05 ORA ZP (R110). -/
def execOraZp (z : Byte) (s : State) : Host.Outcome State Fault Refusal := .next (readPlain opOra (zp z (readPc s)))

/-- $09 ORA IMM (R110). -/
def execOraImm (v : Byte) (s : State) : Host.Outcome State Fault Refusal := .next (immediate opOra v (readPc s))

/-- $0D ORA ABS (R110). -/
def execOraAbs (lo hi : Byte) (s : State) : Host.Outcome State Fault Refusal :=
  .next (readPlain opOra (abs lo hi (readPc s)))

/-- $11 ORA IZY (R110). -/
def execOraIzy (z : Byte) (s : State) : Host.Outcome State Fault Refusal :=
  .next (readIndexed opOra (izy z (readPc s)))

/-- $15 ORA ZPX (R110). -/
def execOraZpx (z : Byte) (s : State) : Host.Outcome State Fault Refusal :=
  .next (readPlain opOra (zpIndexed Regs.x z (readPc s)))

/-- $19 ORA ABY (R110). -/
def execOraAby (lo hi : Byte) (s : State) : Host.Outcome State Fault Refusal :=
  .next (readIndexed opOra (absIndexed Regs.y lo hi (readPc s)))

/-- $1D ORA ABX (R110). -/
def execOraAbx (lo hi : Byte) (s : State) : Host.Outcome State Fault Refusal :=
  .next (readIndexed opOra (absIndexed Regs.x lo hi (readPc s)))

/-- $21 AND IZX (R109). -/
def execAndIzx (z : Byte) (s : State) : Host.Outcome State Fault Refusal :=
  .next (readPlain opAnd (izx z (readPc s)))

/-- $24 BIT ZP (R112). -/
def execBitZp (z : Byte) (s : State) : Host.Outcome State Fault Refusal := .next (readPlain opBit (zp z (readPc s)))

/-- $25 AND ZP (R109). -/
def execAndZp (z : Byte) (s : State) : Host.Outcome State Fault Refusal := .next (readPlain opAnd (zp z (readPc s)))

/-- $29 AND IMM (R109). -/
def execAndImm (v : Byte) (s : State) : Host.Outcome State Fault Refusal := .next (immediate opAnd v (readPc s))

/-- $2C BIT ABS (R112). -/
def execBitAbs (lo hi : Byte) (s : State) : Host.Outcome State Fault Refusal :=
  .next (readPlain opBit (abs lo hi (readPc s)))

/-- $2D AND ABS (R109). -/
def execAndAbs (lo hi : Byte) (s : State) : Host.Outcome State Fault Refusal :=
  .next (readPlain opAnd (abs lo hi (readPc s)))

/-- $31 AND IZY (R109). -/
def execAndIzy (z : Byte) (s : State) : Host.Outcome State Fault Refusal :=
  .next (readIndexed opAnd (izy z (readPc s)))

/-- $35 AND ZPX (R109). -/
def execAndZpx (z : Byte) (s : State) : Host.Outcome State Fault Refusal :=
  .next (readPlain opAnd (zpIndexed Regs.x z (readPc s)))

/-- $39 AND ABY (R109). -/
def execAndAby (lo hi : Byte) (s : State) : Host.Outcome State Fault Refusal :=
  .next (readIndexed opAnd (absIndexed Regs.y lo hi (readPc s)))

/-- $3D AND ABX (R109). -/
def execAndAbx (lo hi : Byte) (s : State) : Host.Outcome State Fault Refusal :=
  .next (readIndexed opAnd (absIndexed Regs.x lo hi (readPc s)))

/-- $41 EOR IZX (R111). -/
def execEorIzx (z : Byte) (s : State) : Host.Outcome State Fault Refusal :=
  .next (readPlain opEor (izx z (readPc s)))

/-- $45 EOR ZP (R111). -/
def execEorZp (z : Byte) (s : State) : Host.Outcome State Fault Refusal := .next (readPlain opEor (zp z (readPc s)))

/-- $49 EOR IMM (R111). -/
def execEorImm (v : Byte) (s : State) : Host.Outcome State Fault Refusal := .next (immediate opEor v (readPc s))

/-- $4D EOR ABS (R111). -/
def execEorAbs (lo hi : Byte) (s : State) : Host.Outcome State Fault Refusal :=
  .next (readPlain opEor (abs lo hi (readPc s)))

/-- $51 EOR IZY (R111). -/
def execEorIzy (z : Byte) (s : State) : Host.Outcome State Fault Refusal :=
  .next (readIndexed opEor (izy z (readPc s)))

/-- $55 EOR ZPX (R111). -/
def execEorZpx (z : Byte) (s : State) : Host.Outcome State Fault Refusal :=
  .next (readPlain opEor (zpIndexed Regs.x z (readPc s)))

/-- $59 EOR ABY (R111). -/
def execEorAby (lo hi : Byte) (s : State) : Host.Outcome State Fault Refusal :=
  .next (readIndexed opEor (absIndexed Regs.y lo hi (readPc s)))

/-- $5D EOR ABX (R111). -/
def execEorAbx (lo hi : Byte) (s : State) : Host.Outcome State Fault Refusal :=
  .next (readIndexed opEor (absIndexed Regs.x lo hi (readPc s)))

/-- $61 ADC IZX (R107). -/
def execAdcIzx (z : Byte) (s : State) : Host.Outcome State Fault Refusal :=
  .next (readPlain opAdc (izx z (readPc s)))

/-- $65 ADC ZP (R107). -/
def execAdcZp (z : Byte) (s : State) : Host.Outcome State Fault Refusal := .next (readPlain opAdc (zp z (readPc s)))

/-- $69 ADC IMM (R107). -/
def execAdcImm (v : Byte) (s : State) : Host.Outcome State Fault Refusal := .next (immediate opAdc v (readPc s))

/-- $6D ADC ABS (R107). -/
def execAdcAbs (lo hi : Byte) (s : State) : Host.Outcome State Fault Refusal :=
  .next (readPlain opAdc (abs lo hi (readPc s)))

/-- $71 ADC IZY (R107). -/
def execAdcIzy (z : Byte) (s : State) : Host.Outcome State Fault Refusal :=
  .next (readIndexed opAdc (izy z (readPc s)))

/-- $75 ADC ZPX (R107). -/
def execAdcZpx (z : Byte) (s : State) : Host.Outcome State Fault Refusal :=
  .next (readPlain opAdc (zpIndexed Regs.x z (readPc s)))

/-- $79 ADC ABY (R107). -/
def execAdcAby (lo hi : Byte) (s : State) : Host.Outcome State Fault Refusal :=
  .next (readIndexed opAdc (absIndexed Regs.y lo hi (readPc s)))

/-- $7D ADC ABX (R107). -/
def execAdcAbx (lo hi : Byte) (s : State) : Host.Outcome State Fault Refusal :=
  .next (readIndexed opAdc (absIndexed Regs.x lo hi (readPc s)))

/-- $C0 CPY IMM (R115). -/
def execCpyImm (v : Byte) (s : State) : Host.Outcome State Fault Refusal := .next (immediate opCpy v (readPc s))

/-- $C1 CMP IZX (R113). -/
def execCmpIzx (z : Byte) (s : State) : Host.Outcome State Fault Refusal :=
  .next (readPlain opCmp (izx z (readPc s)))

/-- $C4 CPY ZP (R115). -/
def execCpyZp (z : Byte) (s : State) : Host.Outcome State Fault Refusal := .next (readPlain opCpy (zp z (readPc s)))

/-- $C5 CMP ZP (R113). -/
def execCmpZp (z : Byte) (s : State) : Host.Outcome State Fault Refusal := .next (readPlain opCmp (zp z (readPc s)))

/-- $C9 CMP IMM (R113). -/
def execCmpImm (v : Byte) (s : State) : Host.Outcome State Fault Refusal := .next (immediate opCmp v (readPc s))

/-- $CC CPY ABS (R115). -/
def execCpyAbs (lo hi : Byte) (s : State) : Host.Outcome State Fault Refusal :=
  .next (readPlain opCpy (abs lo hi (readPc s)))

/-- $CD CMP ABS (R113). -/
def execCmpAbs (lo hi : Byte) (s : State) : Host.Outcome State Fault Refusal :=
  .next (readPlain opCmp (abs lo hi (readPc s)))

/-- $D1 CMP IZY (R113). -/
def execCmpIzy (z : Byte) (s : State) : Host.Outcome State Fault Refusal :=
  .next (readIndexed opCmp (izy z (readPc s)))

/-- $D5 CMP ZPX (R113). -/
def execCmpZpx (z : Byte) (s : State) : Host.Outcome State Fault Refusal :=
  .next (readPlain opCmp (zpIndexed Regs.x z (readPc s)))

/-- $D9 CMP ABY (R113). -/
def execCmpAby (lo hi : Byte) (s : State) : Host.Outcome State Fault Refusal :=
  .next (readIndexed opCmp (absIndexed Regs.y lo hi (readPc s)))

/-- $DD CMP ABX (R113). -/
def execCmpAbx (lo hi : Byte) (s : State) : Host.Outcome State Fault Refusal :=
  .next (readIndexed opCmp (absIndexed Regs.x lo hi (readPc s)))

/-- $E0 CPX IMM (R114). -/
def execCpxImm (v : Byte) (s : State) : Host.Outcome State Fault Refusal := .next (immediate opCpx v (readPc s))

/-- $E1 SBC IZX (R108). -/
def execSbcIzx (z : Byte) (s : State) : Host.Outcome State Fault Refusal :=
  .next (readPlain opSbc (izx z (readPc s)))

/-- $E4 CPX ZP (R114). -/
def execCpxZp (z : Byte) (s : State) : Host.Outcome State Fault Refusal := .next (readPlain opCpx (zp z (readPc s)))

/-- $E5 SBC ZP (R108). -/
def execSbcZp (z : Byte) (s : State) : Host.Outcome State Fault Refusal := .next (readPlain opSbc (zp z (readPc s)))

/-- $E9 SBC IMM (R108). -/
def execSbcImm (v : Byte) (s : State) : Host.Outcome State Fault Refusal := .next (immediate opSbc v (readPc s))

/-- $EC CPX ABS (R114). -/
def execCpxAbs (lo hi : Byte) (s : State) : Host.Outcome State Fault Refusal :=
  .next (readPlain opCpx (abs lo hi (readPc s)))

/-- $ED SBC ABS (R108). -/
def execSbcAbs (lo hi : Byte) (s : State) : Host.Outcome State Fault Refusal :=
  .next (readPlain opSbc (abs lo hi (readPc s)))

/-- $F1 SBC IZY (R108). -/
def execSbcIzy (z : Byte) (s : State) : Host.Outcome State Fault Refusal :=
  .next (readIndexed opSbc (izy z (readPc s)))

/-- $F5 SBC ZPX (R108). -/
def execSbcZpx (z : Byte) (s : State) : Host.Outcome State Fault Refusal :=
  .next (readPlain opSbc (zpIndexed Regs.x z (readPc s)))

/-- $F9 SBC ABY (R108). -/
def execSbcAby (lo hi : Byte) (s : State) : Host.Outcome State Fault Refusal :=
  .next (readIndexed opSbc (absIndexed Regs.y lo hi (readPc s)))

/-- $FD SBC ABX (R108). -/
def execSbcAbx (lo hi : Byte) (s : State) : Host.Outcome State Fault Refusal :=
  .next (readIndexed opSbc (absIndexed Regs.x lo hi (readPc s)))

end Sys2Proof.Machine
end

