-- ==== Sys2Proof/Machine/Control.lean ====
section
/-!
DEFINITION. The meanings of the jump, subroutine, branch, BRK and RTI instructions (44_control.md).
-/

namespace Sys2Proof.Machine

/-- JMP absolute, from cycle 2 (R126). -/
def jumpAbs (lo hi : Byte) (s : State) : State := (dummyPc (poll (readPc s))).jump (w16 hi lo)

/-- JMP indirect, from cycle 2: the pointer's high byte comes from the same page (R127). -/
def jumpIndirect (lo hi : Byte) (s : State) : State :=
  let s1 := dummyPc (readPc s)
  let s2 := cpuRead (w16 hi lo) s1
  let s3 := cpuRead (w16 hi (lo + 1)) (poll s2)
  s3.jump (w16 s3.cpuBus s2.cpuBus)

/-- JSR, from cycle 2: the high byte of the target is fetched after the pushes (R128). -/
def jumpSubroutine (lo hi : Byte) (s : State) : State :=
  let s1 := dummyStack (readPc s)
  let s2 := push (hiByte s1.regs.pc) s1
  let s3 := push (loByte s2.regs.pc) s2
  (dummyPc (poll s3)).jump (w16 hi lo)

/-- RTS, from cycle 2 (R129). -/
def returnSubroutine (s : State) : State :=
  let s1 := pull (dummyStack (dummyPc s))
  let s2 := pull s1
  let target := w16 s2.cpuBus s1.cpuBus
  (cpuRead target (poll s2)).jump (target + 1)

/-- BRK, from cycle 2 (R139). -/
def breakSequence (s : State) : State := enterInterrupt true false (readPc s)

/-- A conditional branch, from cycle 2, its first poll at the end of cycle 1 (R130, R182). -/
def branch (taken : Flags → Bool) (off : Byte) (s : State) : State :=
  let s1 := readPc (poll s)
  if taken s1.regs.p then
    let target := s1.regs.pc + sext16 off
    let raw := w16 (hiByte s1.regs.pc) (loByte target)
    let s2 := dummyPc s1
    if raw = target then s2.jump target else (cpuRead raw (poll s2)).jump target
  else s1

/-- $00 BRK (R139). -/
def execBrk (s : State) : Host.Outcome State Fault Refusal := .next (breakSequence (readPc s))

/-- $10 BPL REL (R131). -/
def execBpl (off : Byte) (s : State) : Host.Outcome State Fault Refusal :=
  .next (branch (fun p => !p.n) off (readPc s))

/-- $20 JSR ABS (R128). -/
def execJsr (lo hi : Byte) (s : State) : Host.Outcome State Fault Refusal := .next (jumpSubroutine lo hi (readPc s))

/-- $30 BMI REL (R132). -/
def execBmi (off : Byte) (s : State) : Host.Outcome State Fault Refusal :=
  .next (branch (fun p => p.n) off (readPc s))

/-- $40 RTI (R140). -/
def execRti (s : State) : Host.Outcome State Fault Refusal := .next (returnFromInterrupt (dummyPc (readPc s)))

/-- $4C JMP ABS (R126). -/
def execJmpAbs (lo hi : Byte) (s : State) : Host.Outcome State Fault Refusal := .next (jumpAbs lo hi (readPc s))

/-- $50 BVC REL (R133). -/
def execBvc (off : Byte) (s : State) : Host.Outcome State Fault Refusal :=
  .next (branch (fun p => !p.v) off (readPc s))

/-- $60 RTS (R129). -/
def execRts (s : State) : Host.Outcome State Fault Refusal := .next (returnSubroutine (readPc s))

/-- $6C JMP IND (R127). -/
def execJmpInd (lo hi : Byte) (s : State) : Host.Outcome State Fault Refusal := .next (jumpIndirect lo hi (readPc s))

/-- $70 BVS REL (R134). -/
def execBvs (off : Byte) (s : State) : Host.Outcome State Fault Refusal :=
  .next (branch (fun p => p.v) off (readPc s))

/-- $90 BCC REL (R135). -/
def execBcc (off : Byte) (s : State) : Host.Outcome State Fault Refusal :=
  .next (branch (fun p => !p.c) off (readPc s))

/-- $B0 BCS REL (R136). -/
def execBcs (off : Byte) (s : State) : Host.Outcome State Fault Refusal :=
  .next (branch (fun p => p.c) off (readPc s))

/-- $D0 BNE REL (R137). -/
def execBne (off : Byte) (s : State) : Host.Outcome State Fault Refusal :=
  .next (branch (fun p => !p.z) off (readPc s))

/-- $F0 BEQ REL (R138). -/
def execBeq (off : Byte) (s : State) : Host.Outcome State Fault Refusal :=
  .next (branch (fun p => p.z) off (readPc s))

end Sys2Proof.Machine
end

