-- ==== Sys2Proof/Machine/FlagOps.lean ====
section
/-!
DEFINITION. The meanings of the flag instructions and NOP (45_flags_nop.md).
-/

namespace Sys2Proof.Machine

/-- $18 CLC (R141). -/
def execClc (s : State) : Host.Outcome State Fault Refusal := .next (implied opClc (readPc s))

/-- $38 SEC (R142). -/
def execSec (s : State) : Host.Outcome State Fault Refusal := .next (implied opSec (readPc s))

/-- $58 CLI (R143). -/
def execCli (s : State) : Host.Outcome State Fault Refusal := .next (implied opCli (readPc s))

/-- $78 SEI (R144). -/
def execSei (s : State) : Host.Outcome State Fault Refusal := .next (implied opSei (readPc s))

/-- $B8 CLV (R145). -/
def execClv (s : State) : Host.Outcome State Fault Refusal := .next (implied opClv (readPc s))

/-- $D8 CLD (R146). -/
def execCld (s : State) : Host.Outcome State Fault Refusal := .next (implied opCld (readPc s))

/-- $EA NOP (R148). -/
def execNop (s : State) : Host.Outcome State Fault Refusal := .next (implied opNone (readPc s))

/-- $F8 SED (R147). -/
def execSed (s : State) : Host.Outcome State Fault Refusal := .next (implied opSed (readPc s))

end Sys2Proof.Machine
end

