-- ==== Sys2Proof/Machine/IncDec.lean ====
section
/-!
DEFINITION. The meanings of the increment, decrement, shift and rotate instructions (43_incdec_shift.md).
-/

namespace Sys2Proof.Machine

/-- $06 ASL ZP (R122). -/
def execAslZp (z : Byte) (s : State) : Host.Outcome State Fault Refusal :=
  .next (rmwPlain modAsl opShiftLeft (zp z (readPc s)))

/-- $0A ASL ACC (R122). -/
def execAslAcc (s : State) : Host.Outcome State Fault Refusal :=
  .next (implied (opAcc modAsl opShiftLeft) (readPc s))

/-- $0E ASL ABS (R122). -/
def execAslAbs (lo hi : Byte) (s : State) : Host.Outcome State Fault Refusal :=
  .next (rmwPlain modAsl opShiftLeft (abs lo hi (readPc s)))

/-- $16 ASL ZPX (R122). -/
def execAslZpx (z : Byte) (s : State) : Host.Outcome State Fault Refusal :=
  .next (rmwPlain modAsl opShiftLeft (zpIndexed Regs.x z (readPc s)))

/-- $1E ASL ABX (R122). -/
def execAslAbx (lo hi : Byte) (s : State) : Host.Outcome State Fault Refusal :=
  .next (rmwIndexed modAsl opShiftLeft (absIndexed Regs.x lo hi (readPc s)))

/-- $26 ROL ZP (R124). -/
def execRolZp (z : Byte) (s : State) : Host.Outcome State Fault Refusal :=
  .next (rmwPlain modRol opShiftLeft (zp z (readPc s)))

/-- $2A ROL ACC (R124). -/
def execRolAcc (s : State) : Host.Outcome State Fault Refusal :=
  .next (implied (opAcc modRol opShiftLeft) (readPc s))

/-- $2E ROL ABS (R124). -/
def execRolAbs (lo hi : Byte) (s : State) : Host.Outcome State Fault Refusal :=
  .next (rmwPlain modRol opShiftLeft (abs lo hi (readPc s)))

/-- $36 ROL ZPX (R124). -/
def execRolZpx (z : Byte) (s : State) : Host.Outcome State Fault Refusal :=
  .next (rmwPlain modRol opShiftLeft (zpIndexed Regs.x z (readPc s)))

/-- $3E ROL ABX (R124). -/
def execRolAbx (lo hi : Byte) (s : State) : Host.Outcome State Fault Refusal :=
  .next (rmwIndexed modRol opShiftLeft (absIndexed Regs.x lo hi (readPc s)))

/-- $46 LSR ZP (R123). -/
def execLsrZp (z : Byte) (s : State) : Host.Outcome State Fault Refusal :=
  .next (rmwPlain modLsr opShiftRight (zp z (readPc s)))

/-- $4A LSR ACC (R123). -/
def execLsrAcc (s : State) : Host.Outcome State Fault Refusal :=
  .next (implied (opAcc modLsr opShiftRight) (readPc s))

/-- $4E LSR ABS (R123). -/
def execLsrAbs (lo hi : Byte) (s : State) : Host.Outcome State Fault Refusal :=
  .next (rmwPlain modLsr opShiftRight (abs lo hi (readPc s)))

/-- $56 LSR ZPX (R123). -/
def execLsrZpx (z : Byte) (s : State) : Host.Outcome State Fault Refusal :=
  .next (rmwPlain modLsr opShiftRight (zpIndexed Regs.x z (readPc s)))

/-- $5E LSR ABX (R123). -/
def execLsrAbx (lo hi : Byte) (s : State) : Host.Outcome State Fault Refusal :=
  .next (rmwIndexed modLsr opShiftRight (absIndexed Regs.x lo hi (readPc s)))

/-- $66 ROR ZP (R125). -/
def execRorZp (z : Byte) (s : State) : Host.Outcome State Fault Refusal :=
  .next (rmwPlain modRor opShiftRight (zp z (readPc s)))

/-- $6A ROR ACC (R125). -/
def execRorAcc (s : State) : Host.Outcome State Fault Refusal :=
  .next (implied (opAcc modRor opShiftRight) (readPc s))

/-- $6E ROR ABS (R125). -/
def execRorAbs (lo hi : Byte) (s : State) : Host.Outcome State Fault Refusal :=
  .next (rmwPlain modRor opShiftRight (abs lo hi (readPc s)))

/-- $76 ROR ZPX (R125). -/
def execRorZpx (z : Byte) (s : State) : Host.Outcome State Fault Refusal :=
  .next (rmwPlain modRor opShiftRight (zpIndexed Regs.x z (readPc s)))

/-- $7E ROR ABX (R125). -/
def execRorAbx (lo hi : Byte) (s : State) : Host.Outcome State Fault Refusal :=
  .next (rmwIndexed modRor opShiftRight (absIndexed Regs.x lo hi (readPc s)))

/-- $88 DEY (R121). -/
def execDey (s : State) : Host.Outcome State Fault Refusal := .next (implied opDey (readPc s))

/-- $C6 DEC ZP (R117). -/
def execDecZp (z : Byte) (s : State) : Host.Outcome State Fault Refusal :=
  .next (rmwPlain modDec opIncDec (zp z (readPc s)))

/-- $C8 INY (R119). -/
def execIny (s : State) : Host.Outcome State Fault Refusal := .next (implied opIny (readPc s))

/-- $CA DEX (R120). -/
def execDex (s : State) : Host.Outcome State Fault Refusal := .next (implied opDex (readPc s))

/-- $CE DEC ABS (R117). -/
def execDecAbs (lo hi : Byte) (s : State) : Host.Outcome State Fault Refusal :=
  .next (rmwPlain modDec opIncDec (abs lo hi (readPc s)))

/-- $D6 DEC ZPX (R117). -/
def execDecZpx (z : Byte) (s : State) : Host.Outcome State Fault Refusal :=
  .next (rmwPlain modDec opIncDec (zpIndexed Regs.x z (readPc s)))

/-- $DE DEC ABX (R117). -/
def execDecAbx (lo hi : Byte) (s : State) : Host.Outcome State Fault Refusal :=
  .next (rmwIndexed modDec opIncDec (absIndexed Regs.x lo hi (readPc s)))

/-- $E6 INC ZP (R116). -/
def execIncZp (z : Byte) (s : State) : Host.Outcome State Fault Refusal :=
  .next (rmwPlain modInc opIncDec (zp z (readPc s)))

/-- $E8 INX (R118). -/
def execInx (s : State) : Host.Outcome State Fault Refusal := .next (implied opInx (readPc s))

/-- $EE INC ABS (R116). -/
def execIncAbs (lo hi : Byte) (s : State) : Host.Outcome State Fault Refusal :=
  .next (rmwPlain modInc opIncDec (abs lo hi (readPc s)))

/-- $F6 INC ZPX (R116). -/
def execIncZpx (z : Byte) (s : State) : Host.Outcome State Fault Refusal :=
  .next (rmwPlain modInc opIncDec (zpIndexed Regs.x z (readPc s)))

/-- $FE INC ABX (R116). -/
def execIncAbx (lo hi : Byte) (s : State) : Host.Outcome State Fault Refusal :=
  .next (rmwIndexed modInc opIncDec (absIndexed Regs.x lo hi (readPc s)))

end Sys2Proof.Machine
end

