-- ==== Sys2Proof/Machine/LoadStore.lean ====
section
/-!
DEFINITION. The meanings of the load and store instructions (40_load_store.md).
-/

namespace Sys2Proof.Machine

/-- $81 STA IZX (R91). -/
def execStaIzx (z : Byte) (s : State) : Host.Outcome State Fault Refusal :=
  .next (writePlain Regs.a (izx z (readPc s)))

/-- $84 STY ZP (R93). -/
def execStyZp (z : Byte) (s : State) : Host.Outcome State Fault Refusal :=
  .next (writePlain Regs.y (zp z (readPc s)))

/-- $85 STA ZP (R91). -/
def execStaZp (z : Byte) (s : State) : Host.Outcome State Fault Refusal :=
  .next (writePlain Regs.a (zp z (readPc s)))

/-- $86 STX ZP (R92). -/
def execStxZp (z : Byte) (s : State) : Host.Outcome State Fault Refusal :=
  .next (writePlain Regs.x (zp z (readPc s)))

/-- $8C STY ABS (R93). -/
def execStyAbs (lo hi : Byte) (s : State) : Host.Outcome State Fault Refusal :=
  .next (writePlain Regs.y (abs lo hi (readPc s)))

/-- $8D STA ABS (R91). -/
def execStaAbs (lo hi : Byte) (s : State) : Host.Outcome State Fault Refusal :=
  .next (writePlain Regs.a (abs lo hi (readPc s)))

/-- $8E STX ABS (R92). -/
def execStxAbs (lo hi : Byte) (s : State) : Host.Outcome State Fault Refusal :=
  .next (writePlain Regs.x (abs lo hi (readPc s)))

/-- $91 STA IZY (R91). -/
def execStaIzy (z : Byte) (s : State) : Host.Outcome State Fault Refusal :=
  .next (writeIndexed Regs.a (izy z (readPc s)))

/-- $94 STY ZPX (R93). -/
def execStyZpx (z : Byte) (s : State) : Host.Outcome State Fault Refusal :=
  .next (writePlain Regs.y (zpIndexed Regs.x z (readPc s)))

/-- $95 STA ZPX (R91). -/
def execStaZpx (z : Byte) (s : State) : Host.Outcome State Fault Refusal :=
  .next (writePlain Regs.a (zpIndexed Regs.x z (readPc s)))

/-- $96 STX ZPY (R92). -/
def execStxZpy (z : Byte) (s : State) : Host.Outcome State Fault Refusal :=
  .next (writePlain Regs.x (zpIndexed Regs.y z (readPc s)))

/-- $99 STA ABY (R91). -/
def execStaAby (lo hi : Byte) (s : State) : Host.Outcome State Fault Refusal :=
  .next (writeIndexed Regs.a (absIndexed Regs.y lo hi (readPc s)))

/-- $9D STA ABX (R91). -/
def execStaAbx (lo hi : Byte) (s : State) : Host.Outcome State Fault Refusal :=
  .next (writeIndexed Regs.a (absIndexed Regs.x lo hi (readPc s)))

/-- $A0 LDY IMM (R90). -/
def execLdyImm (v : Byte) (s : State) : Host.Outcome State Fault Refusal := .next (immediate opLdy v (readPc s))

/-- $A1 LDA IZX (R88). -/
def execLdaIzx (z : Byte) (s : State) : Host.Outcome State Fault Refusal :=
  .next (readPlain opLda (izx z (readPc s)))

/-- $A2 LDX IMM (R89). -/
def execLdxImm (v : Byte) (s : State) : Host.Outcome State Fault Refusal := .next (immediate opLdx v (readPc s))

/-- $A4 LDY ZP (R90). -/
def execLdyZp (z : Byte) (s : State) : Host.Outcome State Fault Refusal := .next (readPlain opLdy (zp z (readPc s)))

/-- $A5 LDA ZP (R88). -/
def execLdaZp (z : Byte) (s : State) : Host.Outcome State Fault Refusal := .next (readPlain opLda (zp z (readPc s)))

/-- $A6 LDX ZP (R89). -/
def execLdxZp (z : Byte) (s : State) : Host.Outcome State Fault Refusal := .next (readPlain opLdx (zp z (readPc s)))

/-- $A9 LDA IMM (R88). -/
def execLdaImm (v : Byte) (s : State) : Host.Outcome State Fault Refusal := .next (immediate opLda v (readPc s))

/-- $AC LDY ABS (R90). -/
def execLdyAbs (lo hi : Byte) (s : State) : Host.Outcome State Fault Refusal :=
  .next (readPlain opLdy (abs lo hi (readPc s)))

/-- $AD LDA ABS (R88). -/
def execLdaAbs (lo hi : Byte) (s : State) : Host.Outcome State Fault Refusal :=
  .next (readPlain opLda (abs lo hi (readPc s)))

/-- $AE LDX ABS (R89). -/
def execLdxAbs (lo hi : Byte) (s : State) : Host.Outcome State Fault Refusal :=
  .next (readPlain opLdx (abs lo hi (readPc s)))

/-- $B1 LDA IZY (R88). -/
def execLdaIzy (z : Byte) (s : State) : Host.Outcome State Fault Refusal :=
  .next (readIndexed opLda (izy z (readPc s)))

/-- $B4 LDY ZPX (R90). -/
def execLdyZpx (z : Byte) (s : State) : Host.Outcome State Fault Refusal :=
  .next (readPlain opLdy (zpIndexed Regs.x z (readPc s)))

/-- $B5 LDA ZPX (R88). -/
def execLdaZpx (z : Byte) (s : State) : Host.Outcome State Fault Refusal :=
  .next (readPlain opLda (zpIndexed Regs.x z (readPc s)))

/-- $B6 LDX ZPY (R89). -/
def execLdxZpy (z : Byte) (s : State) : Host.Outcome State Fault Refusal :=
  .next (readPlain opLdx (zpIndexed Regs.y z (readPc s)))

/-- $B9 LDA ABY (R88). -/
def execLdaAby (lo hi : Byte) (s : State) : Host.Outcome State Fault Refusal :=
  .next (readIndexed opLda (absIndexed Regs.y lo hi (readPc s)))

/-- $BC LDY ABX (R90). -/
def execLdyAbx (lo hi : Byte) (s : State) : Host.Outcome State Fault Refusal :=
  .next (readIndexed opLdy (absIndexed Regs.x lo hi (readPc s)))

/-- $BD LDA ABX (R88). -/
def execLdaAbx (lo hi : Byte) (s : State) : Host.Outcome State Fault Refusal :=
  .next (readIndexed opLda (absIndexed Regs.x lo hi (readPc s)))

/-- $BE LDX ABY (R89). -/
def execLdxAby (lo hi : Byte) (s : State) : Host.Outcome State Fault Refusal :=
  .next (readIndexed opLdx (absIndexed Regs.y lo hi (readPc s)))

end Sys2Proof.Machine
end

