-- ==== Sys2Proof/Machine/Transfer.lean ====
section
/-!
DEFINITION. The meanings of the register transfer and stack instructions (41_transfer_stack.md).
-/

namespace Sys2Proof.Machine

/-- PHA and PHP, from cycle 2 (R100, R101). -/
def pushReg (value : Regs → Byte) (s : State) : State := push (value s.regs) (poll (dummyPc s))

/-- PLA and PLP, from cycle 2 (R102, R103). -/
def pullReg (f : Byte → Regs → Regs) (s : State) : State :=
  let s1 := pull (poll (dummyStack (dummyPc s)))
  s1.mapRegs (f s1.cpuBus)

/-- $08 PHP (R101). -/
def execPhp (s : State) : Host.Outcome State Fault Refusal := .next (pushReg (fun r => pByte true r.p) (readPc s))

/-- $28 PLP (R103). -/
def execPlp (s : State) : Host.Outcome State Fault Refusal :=
  .next (pullReg (fun v r => { r with p := flagsOf v }) (readPc s))

/-- $48 PHA (R100). -/
def execPha (s : State) : Host.Outcome State Fault Refusal := .next (pushReg Regs.a (readPc s))

/-- $68 PLA (R102). -/
def execPla (s : State) : Host.Outcome State Fault Refusal := .next (pullReg opLda (readPc s))

/-- $8A TXA (R96). -/
def execTxa (s : State) : Host.Outcome State Fault Refusal := .next (implied opTxa (readPc s))

/-- $98 TYA (R97). -/
def execTya (s : State) : Host.Outcome State Fault Refusal := .next (implied opTya (readPc s))

/-- $9A TXS (R99). -/
def execTxs (s : State) : Host.Outcome State Fault Refusal := .next (implied opTxs (readPc s))

/-- $A8 TAY (R95). -/
def execTay (s : State) : Host.Outcome State Fault Refusal := .next (implied opTay (readPc s))

/-- $AA TAX (R94). -/
def execTax (s : State) : Host.Outcome State Fault Refusal := .next (implied opTax (readPc s))

/-- $BA TSX (R98). -/
def execTsx (s : State) : Host.Outcome State Fault Refusal := .next (implied opTsx (readPc s))

end Sys2Proof.Machine
end

