-- ==== Sys2Proof/Machine/Unofficial.lean ====
section
/-!
DEFINITION. The meanings of the unofficial opcodes (46_unofficial.md), each after the strict-mode check (R83).
-/

namespace Sys2Proof.Machine

/-- $02 JAM (R149). -/
def execJam02 (s : State) : Host.Outcome State Fault Refusal :=
  .next (unofficial 0x02 (fun s1 => { s1 with halted := true }) s)

/-- $03 SLO IZX (R151). -/
def execSloIzx (z : Byte) (s : State) : Host.Outcome State Fault Refusal :=
  .next (unofficial 0x03 (fun s1 => rmwPlain modAsl opSlo (izx z s1)) s)

/-- $04 NOP ZP (R150). -/
def execNopZp04 (z : Byte) (s : State) : Host.Outcome State Fault Refusal :=
  .next (unofficial 0x04 (fun s1 => readPlain opNop (zp z s1)) s)

/-- $07 SLO ZP (R151). -/
def execSloZp (z : Byte) (s : State) : Host.Outcome State Fault Refusal :=
  .next (unofficial 0x07 (fun s1 => rmwPlain modAsl opSlo (zp z s1)) s)

/-- $0B ANC IMM (R159). -/
def execAncImm0B (v : Byte) (s : State) : Host.Outcome State Fault Refusal :=
  .next (unofficial 0x0B (fun s1 => immediate opAnc v s1) s)

/-- $0C NOP ABS (R150). -/
def execNopAbs (lo hi : Byte) (s : State) : Host.Outcome State Fault Refusal :=
  .next (unofficial 0x0C (fun s1 => readPlain opNop (abs lo hi s1)) s)

/-- $0F SLO ABS (R151). -/
def execSloAbs (lo hi : Byte) (s : State) : Host.Outcome State Fault Refusal :=
  .next (unofficial 0x0F (fun s1 => rmwPlain modAsl opSlo (abs lo hi s1)) s)

/-- $12 JAM (R149). -/
def execJam12 (s : State) : Host.Outcome State Fault Refusal :=
  .next (unofficial 0x12 (fun s1 => { s1 with halted := true }) s)

/-- $13 SLO IZY (R151). -/
def execSloIzy (z : Byte) (s : State) : Host.Outcome State Fault Refusal :=
  .next (unofficial 0x13 (fun s1 => rmwIndexed modAsl opSlo (izy z s1)) s)

/-- $14 NOP ZPX (R150). -/
def execNopZpx14 (z : Byte) (s : State) : Host.Outcome State Fault Refusal :=
  .next (unofficial 0x14 (fun s1 => readPlain opNop (zpIndexed Regs.x z s1)) s)

/-- $17 SLO ZPX (R151). -/
def execSloZpx (z : Byte) (s : State) : Host.Outcome State Fault Refusal :=
  .next (unofficial 0x17 (fun s1 => rmwPlain modAsl opSlo (zpIndexed Regs.x z s1)) s)

/-- $1A NOP (R150). -/
def execNop1A (s : State) : Host.Outcome State Fault Refusal :=
  .next (unofficial 0x1A (fun s1 => implied opNone s1) s)

/-- $1B SLO ABY (R151). -/
def execSloAby (lo hi : Byte) (s : State) : Host.Outcome State Fault Refusal :=
  .next (unofficial 0x1B (fun s1 => rmwIndexed modAsl opSlo (absIndexed Regs.y lo hi s1)) s)

/-- $1C NOP ABX (R150). -/
def execNopAbx1C (lo hi : Byte) (s : State) : Host.Outcome State Fault Refusal :=
  .next (unofficial 0x1C (fun s1 => readIndexed opNop (absIndexed Regs.x lo hi s1)) s)

/-- $1F SLO ABX (R151). -/
def execSloAbx (lo hi : Byte) (s : State) : Host.Outcome State Fault Refusal :=
  .next (unofficial 0x1F (fun s1 => rmwIndexed modAsl opSlo (absIndexed Regs.x lo hi s1)) s)

/-- $22 JAM (R149). -/
def execJam22 (s : State) : Host.Outcome State Fault Refusal :=
  .next (unofficial 0x22 (fun s1 => { s1 with halted := true }) s)

/-- $23 RLA IZX (R152). -/
def execRlaIzx (z : Byte) (s : State) : Host.Outcome State Fault Refusal :=
  .next (unofficial 0x23 (fun s1 => rmwPlain modRol opRla (izx z s1)) s)

/-- $27 RLA ZP (R152). -/
def execRlaZp (z : Byte) (s : State) : Host.Outcome State Fault Refusal :=
  .next (unofficial 0x27 (fun s1 => rmwPlain modRol opRla (zp z s1)) s)

/-- $2B ANC IMM (R159). -/
def execAncImm2B (v : Byte) (s : State) : Host.Outcome State Fault Refusal :=
  .next (unofficial 0x2B (fun s1 => immediate opAnc v s1) s)

/-- $2F RLA ABS (R152). -/
def execRlaAbs (lo hi : Byte) (s : State) : Host.Outcome State Fault Refusal :=
  .next (unofficial 0x2F (fun s1 => rmwPlain modRol opRla (abs lo hi s1)) s)

/-- $32 JAM (R149). -/
def execJam32 (s : State) : Host.Outcome State Fault Refusal :=
  .next (unofficial 0x32 (fun s1 => { s1 with halted := true }) s)

/-- $33 RLA IZY (R152). -/
def execRlaIzy (z : Byte) (s : State) : Host.Outcome State Fault Refusal :=
  .next (unofficial 0x33 (fun s1 => rmwIndexed modRol opRla (izy z s1)) s)

/-- $34 NOP ZPX (R150). -/
def execNopZpx34 (z : Byte) (s : State) : Host.Outcome State Fault Refusal :=
  .next (unofficial 0x34 (fun s1 => readPlain opNop (zpIndexed Regs.x z s1)) s)

/-- $37 RLA ZPX (R152). -/
def execRlaZpx (z : Byte) (s : State) : Host.Outcome State Fault Refusal :=
  .next (unofficial 0x37 (fun s1 => rmwPlain modRol opRla (zpIndexed Regs.x z s1)) s)

/-- $3A NOP (R150). -/
def execNop3A (s : State) : Host.Outcome State Fault Refusal :=
  .next (unofficial 0x3A (fun s1 => implied opNone s1) s)

/-- $3B RLA ABY (R152). -/
def execRlaAby (lo hi : Byte) (s : State) : Host.Outcome State Fault Refusal :=
  .next (unofficial 0x3B (fun s1 => rmwIndexed modRol opRla (absIndexed Regs.y lo hi s1)) s)

/-- $3C NOP ABX (R150). -/
def execNopAbx3C (lo hi : Byte) (s : State) : Host.Outcome State Fault Refusal :=
  .next (unofficial 0x3C (fun s1 => readIndexed opNop (absIndexed Regs.x lo hi s1)) s)

/-- $3F RLA ABX (R152). -/
def execRlaAbx (lo hi : Byte) (s : State) : Host.Outcome State Fault Refusal :=
  .next (unofficial 0x3F (fun s1 => rmwIndexed modRol opRla (absIndexed Regs.x lo hi s1)) s)

/-- $42 JAM (R149). -/
def execJam42 (s : State) : Host.Outcome State Fault Refusal :=
  .next (unofficial 0x42 (fun s1 => { s1 with halted := true }) s)

/-- $43 SRE IZX (R153). -/
def execSreIzx (z : Byte) (s : State) : Host.Outcome State Fault Refusal :=
  .next (unofficial 0x43 (fun s1 => rmwPlain modLsr opSre (izx z s1)) s)

/-- $44 NOP ZP (R150). -/
def execNopZp44 (z : Byte) (s : State) : Host.Outcome State Fault Refusal :=
  .next (unofficial 0x44 (fun s1 => readPlain opNop (zp z s1)) s)

/-- $47 SRE ZP (R153). -/
def execSreZp (z : Byte) (s : State) : Host.Outcome State Fault Refusal :=
  .next (unofficial 0x47 (fun s1 => rmwPlain modLsr opSre (zp z s1)) s)

/-- $4B ALR IMM (R160). -/
def execAlrImm (v : Byte) (s : State) : Host.Outcome State Fault Refusal :=
  .next (unofficial 0x4B (fun s1 => immediate opAlr v s1) s)

/-- $4F SRE ABS (R153). -/
def execSreAbs (lo hi : Byte) (s : State) : Host.Outcome State Fault Refusal :=
  .next (unofficial 0x4F (fun s1 => rmwPlain modLsr opSre (abs lo hi s1)) s)

/-- $52 JAM (R149). -/
def execJam52 (s : State) : Host.Outcome State Fault Refusal :=
  .next (unofficial 0x52 (fun s1 => { s1 with halted := true }) s)

/-- $53 SRE IZY (R153). -/
def execSreIzy (z : Byte) (s : State) : Host.Outcome State Fault Refusal :=
  .next (unofficial 0x53 (fun s1 => rmwIndexed modLsr opSre (izy z s1)) s)

/-- $54 NOP ZPX (R150). -/
def execNopZpx54 (z : Byte) (s : State) : Host.Outcome State Fault Refusal :=
  .next (unofficial 0x54 (fun s1 => readPlain opNop (zpIndexed Regs.x z s1)) s)

/-- $57 SRE ZPX (R153). -/
def execSreZpx (z : Byte) (s : State) : Host.Outcome State Fault Refusal :=
  .next (unofficial 0x57 (fun s1 => rmwPlain modLsr opSre (zpIndexed Regs.x z s1)) s)

/-- $5A NOP (R150). -/
def execNop5A (s : State) : Host.Outcome State Fault Refusal :=
  .next (unofficial 0x5A (fun s1 => implied opNone s1) s)

/-- $5B SRE ABY (R153). -/
def execSreAby (lo hi : Byte) (s : State) : Host.Outcome State Fault Refusal :=
  .next (unofficial 0x5B (fun s1 => rmwIndexed modLsr opSre (absIndexed Regs.y lo hi s1)) s)

/-- $5C NOP ABX (R150). -/
def execNopAbx5C (lo hi : Byte) (s : State) : Host.Outcome State Fault Refusal :=
  .next (unofficial 0x5C (fun s1 => readIndexed opNop (absIndexed Regs.x lo hi s1)) s)

/-- $5F SRE ABX (R153). -/
def execSreAbx (lo hi : Byte) (s : State) : Host.Outcome State Fault Refusal :=
  .next (unofficial 0x5F (fun s1 => rmwIndexed modLsr opSre (absIndexed Regs.x lo hi s1)) s)

/-- $62 JAM (R149). -/
def execJam62 (s : State) : Host.Outcome State Fault Refusal :=
  .next (unofficial 0x62 (fun s1 => { s1 with halted := true }) s)

/-- $63 RRA IZX (R154). -/
def execRraIzx (z : Byte) (s : State) : Host.Outcome State Fault Refusal :=
  .next (unofficial 0x63 (fun s1 => rmwPlain modRor opRra (izx z s1)) s)

/-- $64 NOP ZP (R150). -/
def execNopZp64 (z : Byte) (s : State) : Host.Outcome State Fault Refusal :=
  .next (unofficial 0x64 (fun s1 => readPlain opNop (zp z s1)) s)

/-- $67 RRA ZP (R154). -/
def execRraZp (z : Byte) (s : State) : Host.Outcome State Fault Refusal :=
  .next (unofficial 0x67 (fun s1 => rmwPlain modRor opRra (zp z s1)) s)

/-- $6B ARR IMM (R161). -/
def execArrImm (v : Byte) (s : State) : Host.Outcome State Fault Refusal :=
  .next (unofficial 0x6B (fun s1 => immediate opArr v s1) s)

/-- $6F RRA ABS (R154). -/
def execRraAbs (lo hi : Byte) (s : State) : Host.Outcome State Fault Refusal :=
  .next (unofficial 0x6F (fun s1 => rmwPlain modRor opRra (abs lo hi s1)) s)

/-- $72 JAM (R149). -/
def execJam72 (s : State) : Host.Outcome State Fault Refusal :=
  .next (unofficial 0x72 (fun s1 => { s1 with halted := true }) s)

/-- $73 RRA IZY (R154). -/
def execRraIzy (z : Byte) (s : State) : Host.Outcome State Fault Refusal :=
  .next (unofficial 0x73 (fun s1 => rmwIndexed modRor opRra (izy z s1)) s)

/-- $74 NOP ZPX (R150). -/
def execNopZpx74 (z : Byte) (s : State) : Host.Outcome State Fault Refusal :=
  .next (unofficial 0x74 (fun s1 => readPlain opNop (zpIndexed Regs.x z s1)) s)

/-- $77 RRA ZPX (R154). -/
def execRraZpx (z : Byte) (s : State) : Host.Outcome State Fault Refusal :=
  .next (unofficial 0x77 (fun s1 => rmwPlain modRor opRra (zpIndexed Regs.x z s1)) s)

/-- $7A NOP (R150). -/
def execNop7A (s : State) : Host.Outcome State Fault Refusal :=
  .next (unofficial 0x7A (fun s1 => implied opNone s1) s)

/-- $7B RRA ABY (R154). -/
def execRraAby (lo hi : Byte) (s : State) : Host.Outcome State Fault Refusal :=
  .next (unofficial 0x7B (fun s1 => rmwIndexed modRor opRra (absIndexed Regs.y lo hi s1)) s)

/-- $7C NOP ABX (R150). -/
def execNopAbx7C (lo hi : Byte) (s : State) : Host.Outcome State Fault Refusal :=
  .next (unofficial 0x7C (fun s1 => readIndexed opNop (absIndexed Regs.x lo hi s1)) s)

/-- $7F RRA ABX (R154). -/
def execRraAbx (lo hi : Byte) (s : State) : Host.Outcome State Fault Refusal :=
  .next (unofficial 0x7F (fun s1 => rmwIndexed modRor opRra (absIndexed Regs.x lo hi s1)) s)

/-- $80 NOP IMM (R150). -/
def execNopImm80 (v : Byte) (s : State) : Host.Outcome State Fault Refusal :=
  .next (unofficial 0x80 (fun s1 => immediate opNop v s1) s)

/-- $82 NOP IMM (R150). -/
def execNopImm82 (v : Byte) (s : State) : Host.Outcome State Fault Refusal :=
  .next (unofficial 0x82 (fun s1 => immediate opNop v s1) s)

/-- $83 SAX IZX (R157). -/
def execSaxIzx (z : Byte) (s : State) : Host.Outcome State Fault Refusal :=
  .next (unofficial 0x83 (fun s1 => writePlain (fun r => r.a &&& r.x) (izx z s1)) s)

/-- $87 SAX ZP (R157). -/
def execSaxZp (z : Byte) (s : State) : Host.Outcome State Fault Refusal :=
  .next (unofficial 0x87 (fun s1 => writePlain (fun r => r.a &&& r.x) (zp z s1)) s)

/-- $89 NOP IMM (R150). -/
def execNopImm89 (v : Byte) (s : State) : Host.Outcome State Fault Refusal :=
  .next (unofficial 0x89 (fun s1 => immediate opNop v s1) s)

/-- $8B ANE IMM (R162). -/
def execAneImm (v : Byte) (s : State) : Host.Outcome State Fault Refusal :=
  .next (unofficial 0x8B (fun s1 => immediateDraw Config.aneMagic opAne v s1) s)

/-- $8F SAX ABS (R157). -/
def execSaxAbs (lo hi : Byte) (s : State) : Host.Outcome State Fault Refusal :=
  .next (unofficial 0x8F (fun s1 => writePlain (fun r => r.a &&& r.x) (abs lo hi s1)) s)

/-- $92 JAM (R149). -/
def execJam92 (s : State) : Host.Outcome State Fault Refusal :=
  .next (unofficial 0x92 (fun s1 => { s1 with halted := true }) s)

/-- $93 SHA IZY (R168). -/
def execShaIzy (z : Byte) (s : State) : Host.Outcome State Fault Refusal :=
  .next (unofficial 0x93 (fun s1 => storeHigh (s.cpuCycle + 5) (fun r => r.a &&& r.x) (izy z s1)) s)

/-- $97 SAX ZPY (R157). -/
def execSaxZpy (z : Byte) (s : State) : Host.Outcome State Fault Refusal :=
  .next (unofficial 0x97 (fun s1 => writePlain (fun r => r.a &&& r.x) (zpIndexed Regs.y z s1)) s)

/-- $9B TAS ABY (R171). -/
def execTasAby (lo hi : Byte) (s : State) : Host.Outcome State Fault Refusal :=
  .next (unofficial 0x9B (fun s1 => (storeHigh (s.cpuCycle + 4) (fun r => r.a &&& r.x) (absIndexed Regs.y lo hi s1)).mapRegs (fun r => { r with sp := r.a &&& r.x })) s)

/-- $9C SHY ABX (R170). -/
def execShyAbx (lo hi : Byte) (s : State) : Host.Outcome State Fault Refusal :=
  .next (unofficial 0x9C (fun s1 => storeHigh (s.cpuCycle + 4) Regs.y (absIndexed Regs.x lo hi s1)) s)

/-- $9E SHX ABY (R169). -/
def execShxAby (lo hi : Byte) (s : State) : Host.Outcome State Fault Refusal :=
  .next (unofficial 0x9E (fun s1 => storeHigh (s.cpuCycle + 4) Regs.x (absIndexed Regs.y lo hi s1)) s)

/-- $9F SHA ABY (R168). -/
def execShaAby (lo hi : Byte) (s : State) : Host.Outcome State Fault Refusal :=
  .next (unofficial 0x9F (fun s1 => storeHigh (s.cpuCycle + 4) (fun r => r.a &&& r.x) (absIndexed Regs.y lo hi s1)) s)

/-- $A3 LAX IZX (R158). -/
def execLaxIzx (z : Byte) (s : State) : Host.Outcome State Fault Refusal :=
  .next (unofficial 0xA3 (fun s1 => readPlain opLax (izx z s1)) s)

/-- $A7 LAX ZP (R158). -/
def execLaxZp (z : Byte) (s : State) : Host.Outcome State Fault Refusal :=
  .next (unofficial 0xA7 (fun s1 => readPlain opLax (zp z s1)) s)

/-- $AB LXA IMM (R163). -/
def execLxaImm (v : Byte) (s : State) : Host.Outcome State Fault Refusal :=
  .next (unofficial 0xAB (fun s1 => immediateDraw Config.lxaMagic opLxa v s1) s)

/-- $AF LAX ABS (R158). -/
def execLaxAbs (lo hi : Byte) (s : State) : Host.Outcome State Fault Refusal :=
  .next (unofficial 0xAF (fun s1 => readPlain opLax (abs lo hi s1)) s)

/-- $B2 JAM (R149). -/
def execJamB2 (s : State) : Host.Outcome State Fault Refusal :=
  .next (unofficial 0xB2 (fun s1 => { s1 with halted := true }) s)

/-- $B3 LAX IZY (R158). -/
def execLaxIzy (z : Byte) (s : State) : Host.Outcome State Fault Refusal :=
  .next (unofficial 0xB3 (fun s1 => readIndexed opLax (izy z s1)) s)

/-- $B7 LAX ZPY (R158). -/
def execLaxZpy (z : Byte) (s : State) : Host.Outcome State Fault Refusal :=
  .next (unofficial 0xB7 (fun s1 => readPlain opLax (zpIndexed Regs.y z s1)) s)

/-- $BB LAS ABY (R166). -/
def execLasAby (lo hi : Byte) (s : State) : Host.Outcome State Fault Refusal :=
  .next (unofficial 0xBB (fun s1 => readIndexed opLas (absIndexed Regs.y lo hi s1)) s)

/-- $BF LAX ABY (R158). -/
def execLaxAby (lo hi : Byte) (s : State) : Host.Outcome State Fault Refusal :=
  .next (unofficial 0xBF (fun s1 => readIndexed opLax (absIndexed Regs.y lo hi s1)) s)

/-- $C2 NOP IMM (R150). -/
def execNopImmC2 (v : Byte) (s : State) : Host.Outcome State Fault Refusal :=
  .next (unofficial 0xC2 (fun s1 => immediate opNop v s1) s)

/-- $C3 DCP IZX (R155). -/
def execDcpIzx (z : Byte) (s : State) : Host.Outcome State Fault Refusal :=
  .next (unofficial 0xC3 (fun s1 => rmwPlain modDec opDcp (izx z s1)) s)

/-- $C7 DCP ZP (R155). -/
def execDcpZp (z : Byte) (s : State) : Host.Outcome State Fault Refusal :=
  .next (unofficial 0xC7 (fun s1 => rmwPlain modDec opDcp (zp z s1)) s)

/-- $CB SBX IMM (R164). -/
def execSbxImm (v : Byte) (s : State) : Host.Outcome State Fault Refusal :=
  .next (unofficial 0xCB (fun s1 => immediate opSbx v s1) s)

/-- $CF DCP ABS (R155). -/
def execDcpAbs (lo hi : Byte) (s : State) : Host.Outcome State Fault Refusal :=
  .next (unofficial 0xCF (fun s1 => rmwPlain modDec opDcp (abs lo hi s1)) s)

/-- $D2 JAM (R149). -/
def execJamD2 (s : State) : Host.Outcome State Fault Refusal :=
  .next (unofficial 0xD2 (fun s1 => { s1 with halted := true }) s)

/-- $D3 DCP IZY (R155). -/
def execDcpIzy (z : Byte) (s : State) : Host.Outcome State Fault Refusal :=
  .next (unofficial 0xD3 (fun s1 => rmwIndexed modDec opDcp (izy z s1)) s)

/-- $D4 NOP ZPX (R150). -/
def execNopZpxD4 (z : Byte) (s : State) : Host.Outcome State Fault Refusal :=
  .next (unofficial 0xD4 (fun s1 => readPlain opNop (zpIndexed Regs.x z s1)) s)

/-- $D7 DCP ZPX (R155). -/
def execDcpZpx (z : Byte) (s : State) : Host.Outcome State Fault Refusal :=
  .next (unofficial 0xD7 (fun s1 => rmwPlain modDec opDcp (zpIndexed Regs.x z s1)) s)

/-- $DA NOP (R150). -/
def execNopDA (s : State) : Host.Outcome State Fault Refusal :=
  .next (unofficial 0xDA (fun s1 => implied opNone s1) s)

/-- $DB DCP ABY (R155). -/
def execDcpAby (lo hi : Byte) (s : State) : Host.Outcome State Fault Refusal :=
  .next (unofficial 0xDB (fun s1 => rmwIndexed modDec opDcp (absIndexed Regs.y lo hi s1)) s)

/-- $DC NOP ABX (R150). -/
def execNopAbxDC (lo hi : Byte) (s : State) : Host.Outcome State Fault Refusal :=
  .next (unofficial 0xDC (fun s1 => readIndexed opNop (absIndexed Regs.x lo hi s1)) s)

/-- $DF DCP ABX (R155). -/
def execDcpAbx (lo hi : Byte) (s : State) : Host.Outcome State Fault Refusal :=
  .next (unofficial 0xDF (fun s1 => rmwIndexed modDec opDcp (absIndexed Regs.x lo hi s1)) s)

/-- $E2 NOP IMM (R150). -/
def execNopImmE2 (v : Byte) (s : State) : Host.Outcome State Fault Refusal :=
  .next (unofficial 0xE2 (fun s1 => immediate opNop v s1) s)

/-- $E3 ISC IZX (R156). -/
def execIscIzx (z : Byte) (s : State) : Host.Outcome State Fault Refusal :=
  .next (unofficial 0xE3 (fun s1 => rmwPlain modInc opIsc (izx z s1)) s)

/-- $E7 ISC ZP (R156). -/
def execIscZp (z : Byte) (s : State) : Host.Outcome State Fault Refusal :=
  .next (unofficial 0xE7 (fun s1 => rmwPlain modInc opIsc (zp z s1)) s)

/-- $EB USBC IMM (R165). -/
def execUsbcImm (v : Byte) (s : State) : Host.Outcome State Fault Refusal :=
  .next (unofficial 0xEB (fun s1 => immediate opSbc v s1) s)

/-- $EF ISC ABS (R156). -/
def execIscAbs (lo hi : Byte) (s : State) : Host.Outcome State Fault Refusal :=
  .next (unofficial 0xEF (fun s1 => rmwPlain modInc opIsc (abs lo hi s1)) s)

/-- $F2 JAM (R149). -/
def execJamF2 (s : State) : Host.Outcome State Fault Refusal :=
  .next (unofficial 0xF2 (fun s1 => { s1 with halted := true }) s)

/-- $F3 ISC IZY (R156). -/
def execIscIzy (z : Byte) (s : State) : Host.Outcome State Fault Refusal :=
  .next (unofficial 0xF3 (fun s1 => rmwIndexed modInc opIsc (izy z s1)) s)

/-- $F4 NOP ZPX (R150). -/
def execNopZpxF4 (z : Byte) (s : State) : Host.Outcome State Fault Refusal :=
  .next (unofficial 0xF4 (fun s1 => readPlain opNop (zpIndexed Regs.x z s1)) s)

/-- $F7 ISC ZPX (R156). -/
def execIscZpx (z : Byte) (s : State) : Host.Outcome State Fault Refusal :=
  .next (unofficial 0xF7 (fun s1 => rmwPlain modInc opIsc (zpIndexed Regs.x z s1)) s)

/-- $FA NOP (R150). -/
def execNopFA (s : State) : Host.Outcome State Fault Refusal :=
  .next (unofficial 0xFA (fun s1 => implied opNone s1) s)

/-- $FB ISC ABY (R156). -/
def execIscAby (lo hi : Byte) (s : State) : Host.Outcome State Fault Refusal :=
  .next (unofficial 0xFB (fun s1 => rmwIndexed modInc opIsc (absIndexed Regs.y lo hi s1)) s)

/-- $FC NOP ABX (R150). -/
def execNopAbxFC (lo hi : Byte) (s : State) : Host.Outcome State Fault Refusal :=
  .next (unofficial 0xFC (fun s1 => readIndexed opNop (absIndexed Regs.x lo hi s1)) s)

/-- $FF ISC ABX (R156). -/
def execIscAbx (lo hi : Byte) (s : State) : Host.Outcome State Fault Refusal :=
  .next (unofficial 0xFF (fun s1 => rmwIndexed modInc opIsc (absIndexed Regs.x lo hi s1)) s)

end Sys2Proof.Machine
end

