-- ==== Sys2Proof/Machine/Dispatch.lean ====
section
/-!
DEFINITION. One arm for each instruction: a direct call of its meaning. An instruction runs whole, from its opcode fetch
(R67) to its last cycle, with the DMA that halts it (R181, R288).
-/

namespace Sys2Proof.Machine

def exec (i : Instr) (s : State) : Host.Outcome State Fault Refusal :=
  match i with
  | .brk => Sys2Proof.Machine.execBrk s
  | .oraIzx z => Sys2Proof.Machine.execOraIzx z s
  | .jam02 => Sys2Proof.Machine.execJam02 s
  | .sloIzx z => Sys2Proof.Machine.execSloIzx z s
  | .nopZp04 z => Sys2Proof.Machine.execNopZp04 z s
  | .oraZp z => Sys2Proof.Machine.execOraZp z s
  | .aslZp z => Sys2Proof.Machine.execAslZp z s
  | .sloZp z => Sys2Proof.Machine.execSloZp z s
  | .php => Sys2Proof.Machine.execPhp s
  | .oraImm v => Sys2Proof.Machine.execOraImm v s
  | .aslAcc => Sys2Proof.Machine.execAslAcc s
  | .ancImm0B v => Sys2Proof.Machine.execAncImm0B v s
  | .nopAbs lo hi => Sys2Proof.Machine.execNopAbs lo hi s
  | .oraAbs lo hi => Sys2Proof.Machine.execOraAbs lo hi s
  | .aslAbs lo hi => Sys2Proof.Machine.execAslAbs lo hi s
  | .sloAbs lo hi => Sys2Proof.Machine.execSloAbs lo hi s
  | .bpl off => Sys2Proof.Machine.execBpl off s
  | .oraIzy z => Sys2Proof.Machine.execOraIzy z s
  | .jam12 => Sys2Proof.Machine.execJam12 s
  | .sloIzy z => Sys2Proof.Machine.execSloIzy z s
  | .nopZpx14 z => Sys2Proof.Machine.execNopZpx14 z s
  | .oraZpx z => Sys2Proof.Machine.execOraZpx z s
  | .aslZpx z => Sys2Proof.Machine.execAslZpx z s
  | .sloZpx z => Sys2Proof.Machine.execSloZpx z s
  | .clc => Sys2Proof.Machine.execClc s
  | .oraAby lo hi => Sys2Proof.Machine.execOraAby lo hi s
  | .nop1A => Sys2Proof.Machine.execNop1A s
  | .sloAby lo hi => Sys2Proof.Machine.execSloAby lo hi s
  | .nopAbx1C lo hi => Sys2Proof.Machine.execNopAbx1C lo hi s
  | .oraAbx lo hi => Sys2Proof.Machine.execOraAbx lo hi s
  | .aslAbx lo hi => Sys2Proof.Machine.execAslAbx lo hi s
  | .sloAbx lo hi => Sys2Proof.Machine.execSloAbx lo hi s
  | .jsr lo hi => Sys2Proof.Machine.execJsr lo hi s
  | .andIzx z => Sys2Proof.Machine.execAndIzx z s
  | .jam22 => Sys2Proof.Machine.execJam22 s
  | .rlaIzx z => Sys2Proof.Machine.execRlaIzx z s
  | .bitZp z => Sys2Proof.Machine.execBitZp z s
  | .andZp z => Sys2Proof.Machine.execAndZp z s
  | .rolZp z => Sys2Proof.Machine.execRolZp z s
  | .rlaZp z => Sys2Proof.Machine.execRlaZp z s
  | .plp => Sys2Proof.Machine.execPlp s
  | .andImm v => Sys2Proof.Machine.execAndImm v s
  | .rolAcc => Sys2Proof.Machine.execRolAcc s
  | .ancImm2B v => Sys2Proof.Machine.execAncImm2B v s
  | .bitAbs lo hi => Sys2Proof.Machine.execBitAbs lo hi s
  | .andAbs lo hi => Sys2Proof.Machine.execAndAbs lo hi s
  | .rolAbs lo hi => Sys2Proof.Machine.execRolAbs lo hi s
  | .rlaAbs lo hi => Sys2Proof.Machine.execRlaAbs lo hi s
  | .bmi off => Sys2Proof.Machine.execBmi off s
  | .andIzy z => Sys2Proof.Machine.execAndIzy z s
  | .jam32 => Sys2Proof.Machine.execJam32 s
  | .rlaIzy z => Sys2Proof.Machine.execRlaIzy z s
  | .nopZpx34 z => Sys2Proof.Machine.execNopZpx34 z s
  | .andZpx z => Sys2Proof.Machine.execAndZpx z s
  | .rolZpx z => Sys2Proof.Machine.execRolZpx z s
  | .rlaZpx z => Sys2Proof.Machine.execRlaZpx z s
  | .sec => Sys2Proof.Machine.execSec s
  | .andAby lo hi => Sys2Proof.Machine.execAndAby lo hi s
  | .nop3A => Sys2Proof.Machine.execNop3A s
  | .rlaAby lo hi => Sys2Proof.Machine.execRlaAby lo hi s
  | .nopAbx3C lo hi => Sys2Proof.Machine.execNopAbx3C lo hi s
  | .andAbx lo hi => Sys2Proof.Machine.execAndAbx lo hi s
  | .rolAbx lo hi => Sys2Proof.Machine.execRolAbx lo hi s
  | .rlaAbx lo hi => Sys2Proof.Machine.execRlaAbx lo hi s
  | .rti => Sys2Proof.Machine.execRti s
  | .eorIzx z => Sys2Proof.Machine.execEorIzx z s
  | .jam42 => Sys2Proof.Machine.execJam42 s
  | .sreIzx z => Sys2Proof.Machine.execSreIzx z s
  | .nopZp44 z => Sys2Proof.Machine.execNopZp44 z s
  | .eorZp z => Sys2Proof.Machine.execEorZp z s
  | .lsrZp z => Sys2Proof.Machine.execLsrZp z s
  | .sreZp z => Sys2Proof.Machine.execSreZp z s
  | .pha => Sys2Proof.Machine.execPha s
  | .eorImm v => Sys2Proof.Machine.execEorImm v s
  | .lsrAcc => Sys2Proof.Machine.execLsrAcc s
  | .alrImm v => Sys2Proof.Machine.execAlrImm v s
  | .jmpAbs lo hi => Sys2Proof.Machine.execJmpAbs lo hi s
  | .eorAbs lo hi => Sys2Proof.Machine.execEorAbs lo hi s
  | .lsrAbs lo hi => Sys2Proof.Machine.execLsrAbs lo hi s
  | .sreAbs lo hi => Sys2Proof.Machine.execSreAbs lo hi s
  | .bvc off => Sys2Proof.Machine.execBvc off s
  | .eorIzy z => Sys2Proof.Machine.execEorIzy z s
  | .jam52 => Sys2Proof.Machine.execJam52 s
  | .sreIzy z => Sys2Proof.Machine.execSreIzy z s
  | .nopZpx54 z => Sys2Proof.Machine.execNopZpx54 z s
  | .eorZpx z => Sys2Proof.Machine.execEorZpx z s
  | .lsrZpx z => Sys2Proof.Machine.execLsrZpx z s
  | .sreZpx z => Sys2Proof.Machine.execSreZpx z s
  | .cli => Sys2Proof.Machine.execCli s
  | .eorAby lo hi => Sys2Proof.Machine.execEorAby lo hi s
  | .nop5A => Sys2Proof.Machine.execNop5A s
  | .sreAby lo hi => Sys2Proof.Machine.execSreAby lo hi s
  | .nopAbx5C lo hi => Sys2Proof.Machine.execNopAbx5C lo hi s
  | .eorAbx lo hi => Sys2Proof.Machine.execEorAbx lo hi s
  | .lsrAbx lo hi => Sys2Proof.Machine.execLsrAbx lo hi s
  | .sreAbx lo hi => Sys2Proof.Machine.execSreAbx lo hi s
  | .rts => Sys2Proof.Machine.execRts s
  | .adcIzx z => Sys2Proof.Machine.execAdcIzx z s
  | .jam62 => Sys2Proof.Machine.execJam62 s
  | .rraIzx z => Sys2Proof.Machine.execRraIzx z s
  | .nopZp64 z => Sys2Proof.Machine.execNopZp64 z s
  | .adcZp z => Sys2Proof.Machine.execAdcZp z s
  | .rorZp z => Sys2Proof.Machine.execRorZp z s
  | .rraZp z => Sys2Proof.Machine.execRraZp z s
  | .pla => Sys2Proof.Machine.execPla s
  | .adcImm v => Sys2Proof.Machine.execAdcImm v s
  | .rorAcc => Sys2Proof.Machine.execRorAcc s
  | .arrImm v => Sys2Proof.Machine.execArrImm v s
  | .jmpInd lo hi => Sys2Proof.Machine.execJmpInd lo hi s
  | .adcAbs lo hi => Sys2Proof.Machine.execAdcAbs lo hi s
  | .rorAbs lo hi => Sys2Proof.Machine.execRorAbs lo hi s
  | .rraAbs lo hi => Sys2Proof.Machine.execRraAbs lo hi s
  | .bvs off => Sys2Proof.Machine.execBvs off s
  | .adcIzy z => Sys2Proof.Machine.execAdcIzy z s
  | .jam72 => Sys2Proof.Machine.execJam72 s
  | .rraIzy z => Sys2Proof.Machine.execRraIzy z s
  | .nopZpx74 z => Sys2Proof.Machine.execNopZpx74 z s
  | .adcZpx z => Sys2Proof.Machine.execAdcZpx z s
  | .rorZpx z => Sys2Proof.Machine.execRorZpx z s
  | .rraZpx z => Sys2Proof.Machine.execRraZpx z s
  | .sei => Sys2Proof.Machine.execSei s
  | .adcAby lo hi => Sys2Proof.Machine.execAdcAby lo hi s
  | .nop7A => Sys2Proof.Machine.execNop7A s
  | .rraAby lo hi => Sys2Proof.Machine.execRraAby lo hi s
  | .nopAbx7C lo hi => Sys2Proof.Machine.execNopAbx7C lo hi s
  | .adcAbx lo hi => Sys2Proof.Machine.execAdcAbx lo hi s
  | .rorAbx lo hi => Sys2Proof.Machine.execRorAbx lo hi s
  | .rraAbx lo hi => Sys2Proof.Machine.execRraAbx lo hi s
  | .nopImm80 v => Sys2Proof.Machine.execNopImm80 v s
  | .staIzx z => Sys2Proof.Machine.execStaIzx z s
  | .nopImm82 v => Sys2Proof.Machine.execNopImm82 v s
  | .saxIzx z => Sys2Proof.Machine.execSaxIzx z s
  | .styZp z => Sys2Proof.Machine.execStyZp z s
  | .staZp z => Sys2Proof.Machine.execStaZp z s
  | .stxZp z => Sys2Proof.Machine.execStxZp z s
  | .saxZp z => Sys2Proof.Machine.execSaxZp z s
  | .dey => Sys2Proof.Machine.execDey s
  | .nopImm89 v => Sys2Proof.Machine.execNopImm89 v s
  | .txa => Sys2Proof.Machine.execTxa s
  | .aneImm v => Sys2Proof.Machine.execAneImm v s
  | .styAbs lo hi => Sys2Proof.Machine.execStyAbs lo hi s
  | .staAbs lo hi => Sys2Proof.Machine.execStaAbs lo hi s
  | .stxAbs lo hi => Sys2Proof.Machine.execStxAbs lo hi s
  | .saxAbs lo hi => Sys2Proof.Machine.execSaxAbs lo hi s
  | .bcc off => Sys2Proof.Machine.execBcc off s
  | .staIzy z => Sys2Proof.Machine.execStaIzy z s
  | .jam92 => Sys2Proof.Machine.execJam92 s
  | .shaIzy z => Sys2Proof.Machine.execShaIzy z s
  | .styZpx z => Sys2Proof.Machine.execStyZpx z s
  | .staZpx z => Sys2Proof.Machine.execStaZpx z s
  | .stxZpy z => Sys2Proof.Machine.execStxZpy z s
  | .saxZpy z => Sys2Proof.Machine.execSaxZpy z s
  | .tya => Sys2Proof.Machine.execTya s
  | .staAby lo hi => Sys2Proof.Machine.execStaAby lo hi s
  | .txs => Sys2Proof.Machine.execTxs s
  | .tasAby lo hi => Sys2Proof.Machine.execTasAby lo hi s
  | .shyAbx lo hi => Sys2Proof.Machine.execShyAbx lo hi s
  | .staAbx lo hi => Sys2Proof.Machine.execStaAbx lo hi s
  | .shxAby lo hi => Sys2Proof.Machine.execShxAby lo hi s
  | .shaAby lo hi => Sys2Proof.Machine.execShaAby lo hi s
  | .ldyImm v => Sys2Proof.Machine.execLdyImm v s
  | .ldaIzx z => Sys2Proof.Machine.execLdaIzx z s
  | .ldxImm v => Sys2Proof.Machine.execLdxImm v s
  | .laxIzx z => Sys2Proof.Machine.execLaxIzx z s
  | .ldyZp z => Sys2Proof.Machine.execLdyZp z s
  | .ldaZp z => Sys2Proof.Machine.execLdaZp z s
  | .ldxZp z => Sys2Proof.Machine.execLdxZp z s
  | .laxZp z => Sys2Proof.Machine.execLaxZp z s
  | .tay => Sys2Proof.Machine.execTay s
  | .ldaImm v => Sys2Proof.Machine.execLdaImm v s
  | .tax => Sys2Proof.Machine.execTax s
  | .lxaImm v => Sys2Proof.Machine.execLxaImm v s
  | .ldyAbs lo hi => Sys2Proof.Machine.execLdyAbs lo hi s
  | .ldaAbs lo hi => Sys2Proof.Machine.execLdaAbs lo hi s
  | .ldxAbs lo hi => Sys2Proof.Machine.execLdxAbs lo hi s
  | .laxAbs lo hi => Sys2Proof.Machine.execLaxAbs lo hi s
  | .bcs off => Sys2Proof.Machine.execBcs off s
  | .ldaIzy z => Sys2Proof.Machine.execLdaIzy z s
  | .jamB2 => Sys2Proof.Machine.execJamB2 s
  | .laxIzy z => Sys2Proof.Machine.execLaxIzy z s
  | .ldyZpx z => Sys2Proof.Machine.execLdyZpx z s
  | .ldaZpx z => Sys2Proof.Machine.execLdaZpx z s
  | .ldxZpy z => Sys2Proof.Machine.execLdxZpy z s
  | .laxZpy z => Sys2Proof.Machine.execLaxZpy z s
  | .clv => Sys2Proof.Machine.execClv s
  | .ldaAby lo hi => Sys2Proof.Machine.execLdaAby lo hi s
  | .tsx => Sys2Proof.Machine.execTsx s
  | .lasAby lo hi => Sys2Proof.Machine.execLasAby lo hi s
  | .ldyAbx lo hi => Sys2Proof.Machine.execLdyAbx lo hi s
  | .ldaAbx lo hi => Sys2Proof.Machine.execLdaAbx lo hi s
  | .ldxAby lo hi => Sys2Proof.Machine.execLdxAby lo hi s
  | .laxAby lo hi => Sys2Proof.Machine.execLaxAby lo hi s
  | .cpyImm v => Sys2Proof.Machine.execCpyImm v s
  | .cmpIzx z => Sys2Proof.Machine.execCmpIzx z s
  | .nopImmC2 v => Sys2Proof.Machine.execNopImmC2 v s
  | .dcpIzx z => Sys2Proof.Machine.execDcpIzx z s
  | .cpyZp z => Sys2Proof.Machine.execCpyZp z s
  | .cmpZp z => Sys2Proof.Machine.execCmpZp z s
  | .decZp z => Sys2Proof.Machine.execDecZp z s
  | .dcpZp z => Sys2Proof.Machine.execDcpZp z s
  | .iny => Sys2Proof.Machine.execIny s
  | .cmpImm v => Sys2Proof.Machine.execCmpImm v s
  | .dex => Sys2Proof.Machine.execDex s
  | .sbxImm v => Sys2Proof.Machine.execSbxImm v s
  | .cpyAbs lo hi => Sys2Proof.Machine.execCpyAbs lo hi s
  | .cmpAbs lo hi => Sys2Proof.Machine.execCmpAbs lo hi s
  | .decAbs lo hi => Sys2Proof.Machine.execDecAbs lo hi s
  | .dcpAbs lo hi => Sys2Proof.Machine.execDcpAbs lo hi s
  | .bne off => Sys2Proof.Machine.execBne off s
  | .cmpIzy z => Sys2Proof.Machine.execCmpIzy z s
  | .jamD2 => Sys2Proof.Machine.execJamD2 s
  | .dcpIzy z => Sys2Proof.Machine.execDcpIzy z s
  | .nopZpxD4 z => Sys2Proof.Machine.execNopZpxD4 z s
  | .cmpZpx z => Sys2Proof.Machine.execCmpZpx z s
  | .decZpx z => Sys2Proof.Machine.execDecZpx z s
  | .dcpZpx z => Sys2Proof.Machine.execDcpZpx z s
  | .cld => Sys2Proof.Machine.execCld s
  | .cmpAby lo hi => Sys2Proof.Machine.execCmpAby lo hi s
  | .nopDA => Sys2Proof.Machine.execNopDA s
  | .dcpAby lo hi => Sys2Proof.Machine.execDcpAby lo hi s
  | .nopAbxDC lo hi => Sys2Proof.Machine.execNopAbxDC lo hi s
  | .cmpAbx lo hi => Sys2Proof.Machine.execCmpAbx lo hi s
  | .decAbx lo hi => Sys2Proof.Machine.execDecAbx lo hi s
  | .dcpAbx lo hi => Sys2Proof.Machine.execDcpAbx lo hi s
  | .cpxImm v => Sys2Proof.Machine.execCpxImm v s
  | .sbcIzx z => Sys2Proof.Machine.execSbcIzx z s
  | .nopImmE2 v => Sys2Proof.Machine.execNopImmE2 v s
  | .iscIzx z => Sys2Proof.Machine.execIscIzx z s
  | .cpxZp z => Sys2Proof.Machine.execCpxZp z s
  | .sbcZp z => Sys2Proof.Machine.execSbcZp z s
  | .incZp z => Sys2Proof.Machine.execIncZp z s
  | .iscZp z => Sys2Proof.Machine.execIscZp z s
  | .inx => Sys2Proof.Machine.execInx s
  | .sbcImm v => Sys2Proof.Machine.execSbcImm v s
  | .nop => Sys2Proof.Machine.execNop s
  | .usbcImm v => Sys2Proof.Machine.execUsbcImm v s
  | .cpxAbs lo hi => Sys2Proof.Machine.execCpxAbs lo hi s
  | .sbcAbs lo hi => Sys2Proof.Machine.execSbcAbs lo hi s
  | .incAbs lo hi => Sys2Proof.Machine.execIncAbs lo hi s
  | .iscAbs lo hi => Sys2Proof.Machine.execIscAbs lo hi s
  | .beq off => Sys2Proof.Machine.execBeq off s
  | .sbcIzy z => Sys2Proof.Machine.execSbcIzy z s
  | .jamF2 => Sys2Proof.Machine.execJamF2 s
  | .iscIzy z => Sys2Proof.Machine.execIscIzy z s
  | .nopZpxF4 z => Sys2Proof.Machine.execNopZpxF4 z s
  | .sbcZpx z => Sys2Proof.Machine.execSbcZpx z s
  | .incZpx z => Sys2Proof.Machine.execIncZpx z s
  | .iscZpx z => Sys2Proof.Machine.execIscZpx z s
  | .sed => Sys2Proof.Machine.execSed s
  | .sbcAby lo hi => Sys2Proof.Machine.execSbcAby lo hi s
  | .nopFA => Sys2Proof.Machine.execNopFA s
  | .iscAby lo hi => Sys2Proof.Machine.execIscAby lo hi s
  | .nopAbxFC lo hi => Sys2Proof.Machine.execNopAbxFC lo hi s
  | .sbcAbx lo hi => Sys2Proof.Machine.execSbcAbx lo hi s
  | .incAbx lo hi => Sys2Proof.Machine.execIncAbx lo hi s
  | .iscAbx lo hi => Sys2Proof.Machine.execIscAbx lo hi s

end Sys2Proof.Machine
end

