-- ==== Sys2Proof/Machine/Step.lean ====
section
/-!
DEFINITION. One step of the machine: the document's `step()` (R288), from one instruction boundary to the next; and where the
next instruction is fetched from (`State.withFetchWord`).
-/

namespace Sys2Proof.Machine

/-- One `step()`: nothing once `fatal` is set (R173); the reset sequence after power-on (R299); one cycle while halted
(R149); the interrupt sequence that the last poll chose (R181); else the instruction at PC (R288). -/
def step (s : State) : Host.Outcome State Fault Refusal :=
  match s.fatal with
  | some k => .fault (.fatal k)
  | none =>
    if s.resetPending then .next (resetSequence s)
    else if s.halted then .next (haltedStep s)
    else match s.intNext with
      | some k => .next (interruptSequence k s)
      | none => exec (fetchInstr s) s

/-- The state ready to fetch at PC: no reset, halt, interrupt or fatal condition stands before the fetch (log 5). -/
def State.readyToFetch (s : State) : State :=
  { s with fatal := none, resetPending := false, halted := false, intNext := none }

/-- `s` with the instruction whose bits are `w` where the next step fetches it: its opcode and two bytes after it, at PC
(log 5). Where PC reads no memory, PC becomes $0000, in work RAM. -/
def State.withFetchWord (s : State) (nbits w : Nat) : State :=
  let n := w % 2 ^ nbits
  let bytes : List Byte := [BitVec.ofNat 8 n, BitVec.ofNat 8 (n / 256), BitVec.ofNat 8 (n / 65536)]
  let r := s.readyToFetch
  match placeBytes r.regs.pc bytes r with
  | some t => t
  | none => (placeBytes 0 bytes (r.jump 0)).getD r

end Sys2Proof.Machine
end

