-- ==== Sys2Proof/Machine/Loader.lean ====
section
/-!
DEFINITION. Loading a cartridge image (R206 to R208) and the power-on call (R293). Loading comes before any state exists; a
rejected image has no run (R207).
-/

namespace Sys2Proof.Machine

/-- The loader's two named errors (R207). They are results, not fatal conditions (R173). -/
inductive LoadError where
  | malformedCartridgeImage
  | unsupportedMapper (number : Nat)
deriving DecidableEq, Repr

/-- Byte n of an image. -/
def imageByte (image : List Byte) (n : Nat) : Byte := image.getD n 0

/-- The header's fields (R206). -/
def parseHeader (image : List Byte) : Header :=
  let b6 := imageByte image 6
  let b7 := imageByte image 7
  { prgUnits := (imageByte image 4).toNat
    chrUnits := (imageByte image 5).toNat
    mapper := ((b7 &&& 0xF0#8) ||| (b6 >>> 4)).toNat
    vertical := b6.getLsbD 0
    battery := b6.getLsbD 1
    trainer := b6.getLsbD 2
    fourScreen := b6.getLsbD 3 }

/-- Bytes 0 to 3 of an iNES image (R206). -/
def imageMagic : List Byte := [0x4E, 0x45, 0x53, 0x1A]

/-- Whether the sizes are possible for the mapper; a mapper that is not supported has no size rule (R207). -/
def Header.sizesPossible (h : Header) : Bool :=
  if h.mapper = 0 then decide (h.prgUnits ≤ 2) && decide (h.chrUnits ≤ 1)
  else if h.mapper = 4 then decide (h.prgUnits ≤ 32) && decide (h.chrUnits ≤ 32)
  else true

/-- Where PRG ROM starts: after the header and the trainer (R206). -/
def Header.prgStart (h : Header) : Nat := 16 + (if h.trainer then 512 else 0)

/-- Where CHR ROM starts (R206). -/
def Header.chrStart (h : Header) : Nat := Header.prgStart h + 16384 * h.prgUnits

/-- The least length of an image (R207). -/
def Header.imageSize (h : Header) : Nat := Header.chrStart h + 8192 * h.chrUnits

/-- The cartridge of an accepted image; the trainer goes to PRG RAM offset $1000 (R206, R208). -/
def buildCartridge (h : Header) (image : List Byte) : Cartridge where
  header := h
  mapper := if h.mapper = 4 then .mmc3 else .nrom
  prgRom := Memory.ofRom 0 ((image.drop (Header.prgStart h)).take (16384 * h.prgUnits))
  chr := Memory.ofRom 0 ((image.drop (Header.chrStart h)).take (8192 * h.chrUnits))
  prgRam := if h.trainer then Memory.ofBytes 0x1000 ((image.drop 16).take 512) else []
  fourScreen := []
  mmc3 := Mmc3.powerOn

/-- `load(image)`: the checks in the order R207 lists them. -/
def load (image : List Byte) : Except LoadError Cartridge :=
  let h := parseHeader image
  if image.length < 16 then .error .malformedCartridgeImage
  else if image.take 4 ≠ imageMagic then .error .malformedCartridgeImage
  else if h.prgUnits = 0 then .error .malformedCartridgeImage
  else if image.length < Header.imageSize h then .error .malformedCartridgeImage
  else if !Header.sizesPossible h then .error .malformedCartridgeImage
  else if h.mapper ≠ 0 ∧ h.mapper ≠ 4 then .error (.unsupportedMapper h.mapper)
  else .ok (buildCartridge h image)

end Sys2Proof.Machine
end

