-- ==== Sys2Proof/WellFormed.lean ====
section
/-!
DEFINITION. What a parameter set and a cartridge header must satisfy. An instruction needs no check of its own: its operands
are bytes, every byte is a legal operand, and every opcode byte decodes (R82), so every `Instr` is well-formed.
-/

namespace Sys2Proof

/-- Every instruction is well-formed (R82). -/
def Instr.wellFormed (_ : Instr) : Bool := true

/-- The launch parameters of R11 that have a range: a sample period and a sample window are at least 1 (R282, R291). The
ranges of PPU_PHASE and APU_PUT_PARITY are in their types. -/
def Params.wellFormed (p : Params) : Bool := decide (0 < p.samplePeriod) && decide (0 < p.sampleWindow)

/-- A header that a cartridge can have: NROM or MMC3, with the sizes its board allows (R207). -/
def Header.wellFormed (h : Header) : Bool :=
  decide (0 < h.prgUnits) &&
    ((h.mapper == 0 && decide (h.prgUnits ≤ 2) && decide (h.chrUnits ≤ 1))
      || (h.mapper == 4 && decide (h.prgUnits ≤ 32) && decide (h.chrUnits ≤ 32)))

end Sys2Proof
end

