-- ==== Sys2Proof/Safety.lean ====
section
/-!
DEFINITION. The terms claims use: the launch premises and the end of a run (R295, R296); the byte a plain memory address
holds; the address and the operand an instruction uses, computed from the state it starts in; what the passage of time leaves
alone; and the invariants that every step keeps (R176).
-/

namespace Sys2Proof.Machine

/-! ## Launch premises and the end of a run (R295, R296) -/

/-- `NoFault` (R295): no fatal condition is set. -/
def NoFault (s : State) : Prop := s.fatal = none

/-- `PowerOnLaunch(img, params)` (R295). -/
def PowerOnLaunch (image : List Byte) (params : Params) (s : State) : Prop :=
  ∃ cart, load image = .ok cart ∧ s = State.powerOn params cart

/-- No DMA is requested or running, and the DMC has no byte to fetch. -/
def NoDma (s : State) : Prop := s.oamDma = none ∧ s.dmcDma = false ∧ s.apu.dmc.remaining = 0

/-- An instruction boundary at which the next step fetches an opcode. -/
def AtFetch (s : State) : Prop :=
  s.fatal = none ∧ s.resetPending = false ∧ s.halted = false ∧ s.intNext = none

/-- What a claim about a code fragment names of the state it starts in (R295, log 35). -/
structure Entry where
  regs       : Regs
  scanline   : Nat
  dot        : Nat
  cpuCycle   : Nat
  wram       : Memory
  ciram      : Memory
  prgRam     : Memory
  chrRam     : Memory   -- of no effect on a board with CHR ROM
  fourScreen : Memory
  oam        : Vector Byte 256
  palette    : Vector (BitVec 6) 32
deriving DecidableEq, Repr

/-- An entry's position is on the grid, and its memories are canonical and within their sizes (R237, R43). -/
def Entry.wellFormed (e : Entry) : Prop :=
  e.scanline ≤ 261 ∧ e.dot ≤ 340 ∧ (e.wram.wf ∧ e.wram.below 2048) ∧ (e.ciram.wf ∧ e.ciram.below 2048) ∧
    (e.prgRam.wf ∧ e.prgRam.below 8192) ∧ (e.chrRam.wf ∧ e.chrRam.below 8192) ∧
    (e.fourScreen.wf ∧ e.fourScreen.below 4096)

/-- A state past its reset sequence with an entry's fields; every other field as it is (R295). -/
def State.withEntry (e : Entry) (s : State) : State :=
  { s with
    regs := e.regs
    resetPending := false
    cpuCycle := e.cpuCycle
    wram := e.wram
    ciram := e.ciram
    cart := { s.cart with
      prgRam := e.prgRam
      chr := if s.cart.chrIsRam then e.chrRam else s.cart.chr
      fourScreen := e.fourScreen }
    ppu := { s.ppu with scanline := e.scanline, dot := e.dot, oam := e.oam, palette := e.palette } }

/-- `CleanEntry(pc, regs)`: a power-on launch but for the entry's fields, at an instruction boundary (R295). The conditions
that the rule lists besides follow, because power-on has them (`CleanEntry.conditions`, Sys2Proof/Laws/Runs.lean). -/
def CleanEntry (image : List Byte) (params : Params) (e : Entry) (s : State) : Prop :=
  e.wellFormed ∧ ∃ u, PowerOnLaunch image params u ∧ s = u.withEntry e

/-! ## Runs and their ends (R295, R296) -/

/-- The state after n steps, if each of them answers a next state (R288). -/
def stepN : Nat → State → Option State
  | 0, s => some s
  | n + 1, s =>
    match step s with
    | .next t => stepN n t
    | .fault _ => none
    | .refused _ => none

/-- `NoInterrupts`, for a run from s to t: no NMI edge and no active IRQ line in any of its cycles (R295, log 34). -/
def NoInterrupts (s t : State) : Prop := t.nmiEdges = s.nmiEdges ∧ t.irqCycles = s.irqCycles

/-- `t` is the first state of the run from s, s itself among them, that satisfies `p`. -/
def FirstOfRun (p : State → Prop) (s t : State) : Prop :=
  ∃ n, stepN n s = some t ∧ p t ∧ ∀ m u, m < n → stepN m s = some u → ¬p u

/-- What ends a run: an instruction boundary at END_PC with no DMA requested or running, or a halted CPU; never a fatal
state (R296). A chosen or pending interrupt does not matter. -/
def AtEnd (endPc : Word) (s : State) : Prop :=
  NoFault s ∧
    ((s.resetPending = false ∧ s.regs.pc = endPc ∧ s.oamDma = none ∧ s.dmcDma = false) ∨ s.halted = true)

/-- A run from s ends at t: the first state that ends it (R296). -/
def RunEnds (endPc : Word) (s t : State) : Prop := FirstOfRun (AtEnd endPc) s t

/-- A `run_frame()` run from s ends at t: the first state, and no fatal one, by which n frames have been published since s
(R290, R296). -/
def FrameRunEnds (n : Nat) (s t : State) : Prop :=
  FirstOfRun (fun u => NoFault u ∧ s.ppu.frames + n ≤ u.ppu.frames) s t

/-- Whether an instruction runs to its end: it is official, or strict mode is off (R83). -/
def Runs (i : Instr) (s : State) : Prop := i.official = true ∨ s.params.strictOpcodes = false

/-! ## Plain memory -/

/-- The byte an address of plain memory holds: work RAM, PRG RAM that can be read, PRG ROM; `none` for a device register
and for an address nothing drives (R196). -/
def memByte (s : State) (a : Word) : Option Byte :=
  if a.toNat < 0x2000 then some (wramByte s a)
  else if a.toNat < 0x6000 then none
  else s.cart.cpuRead s.params a

/-- Whether a write at `ea` stores to the work RAM cell of `a` (R196, R199). -/
def hitsRam (ea a : Word) : Prop := ea.toNat < 0x2000 ∧ ea.toNat % 2048 = a.toNat % 2048

/-- Whether a write at `ea` stores to the PRG RAM cell of `a` (R212, R217). -/
def hitsPrgRam (s : State) (ea a : Word) : Prop :=
  0x6000 ≤ ea.toNat ∧ ea.toNat < 0x8000 ∧ s.cart.ramWritable s.params = true ∧ ea.toNat % 8192 = a.toNat % 8192

/-! ## The address and the operand of an instruction (R69 to R75) -/

/-- The 16-bit pointer in page zero at p, its high byte from `(p + 1) & $FF` (R50, R74, R75). -/
def zpPointer (s : State) (p : Byte) : Word := w16 (wramByte s (zext16 (p + 1))) (wramByte s (zext16 p))

/-- The first operand byte. -/
def operand1 (i : Instr) : Byte := i.operands.getD 0 0

/-- The second operand byte. -/
def operand2 (i : Instr) : Byte := i.operands.getD 1 0

/-- EA (R70 to R75); 0 for a mode without one. -/
def effAddr (i : Instr) (s : State) : Word :=
  let z := operand1 i
  let base := w16 (operand2 i) (operand1 i)
  match i.mode with
  | .zp => zext16 z
  | .zpx => zext16 (z + s.regs.x)
  | .zpy => zext16 (z + s.regs.y)
  | .abs => base
  | .abx => base + zext16 s.regs.x
  | .aby => base + zext16 s.regs.y
  | .izx => zpPointer s (z + s.regs.x)
  | .izy => zpPointer s z + zext16 s.regs.y
  | .imp => 0
  | .acc => 0
  | .imm => 0
  | .ind => 0
  | .rel => 0
  | .jam => 0

/-- The base of an indexed mode and its index (R73, R75); 0 for the other modes. -/
def baseIndex (i : Instr) (s : State) : Word × Byte :=
  match i.mode with
  | .abx => (w16 (operand2 i) (operand1 i), s.regs.x)
  | .aby => (w16 (operand2 i) (operand1 i), s.regs.y)
  | .izy => (zpPointer s (operand1 i), s.regs.y)
  | .imp => (0, 0)
  | .acc => (0, 0)
  | .imm => (0, 0)
  | .zp => (0, 0)
  | .zpx => (0, 0)
  | .zpy => (0, 0)
  | .abs => (0, 0)
  | .izx => (0, 0)
  | .ind => (0, 0)
  | .rel => (0, 0)
  | .jam => (0, 0)

/-- `crossed` (R73, R75). -/
def pageCrossed (i : Instr) (s : State) : Bool :=
  decide (0xFF < (loByte (baseIndex i s).1).toNat + (baseIndex i s).2.toNat)

/-- The operand M, where it is an immediate or plain memory holds it (R69, R76). -/
def operandByte (i : Instr) (s : State) : Option Byte :=
  if i.mode = .imm then some (operand1 i) else memByte s (effAddr i s)

/-- The registers with PC moved past an instruction (R23, R66). -/
def pastInstr (i : Instr) (r : Regs) : Regs := { r with pc := r.pc + BitVec.ofNat 16 i.length }

/-- N and Z of a result, the other flags kept (R15). -/
def withNZ (v : Byte) (p : Flags) : Flags := { p with n := v.getLsbD 7, z := decide (v = 0) }

/-- The byte form of P with bit 4 = b and bit 5 = 1 (R26). -/
def statusByte (b : Bool) (p : Flags) : Byte := BitVec.ofBoolListBE [p.n, p.v, true, b, p.d, p.i, p.z, p.c]

/-- Whether a branch's condition holds (R131 to R138); false for what is no branch. -/
def branchTaken (i : Instr) (p : Flags) : Bool :=
  match i.mnemonic with
  | .bpl => !p.n
  | .bmi => p.n
  | .bvc => !p.v
  | .bvs => p.v
  | .bcc => !p.c
  | .bcs => p.c
  | .bne => !p.z
  | .beq => p.z
  | _ => false

/-- The target of a branch: the address after it plus its signed offset (R130). -/
def branchTarget (i : Instr) (s : State) : Word := s.regs.pc + 2 + BitVec.ofInt 16 (operand1 i).toInt

/-- The cycles an instruction takes without DMA: the table's count, one more for a page cross where the table says so, one
more for a taken branch and another if its target is on another page (R79, R130). -/
def cyclesFor (i : Instr) (s : State) : Nat :=
  i.cycles + (if i.crossExtra && pageCrossed i s then 1 else 0)
    + (if branchTaken i s.regs.p then
        (if (branchTarget i s).toNat / 256 = (s.regs.pc + 2).toNat / 256 then 1 else 2)
       else 0)

/-- The 16-bit address that PRG ROM holds at a vector (R56). -/
def vectorAt (s : State) (a : Word) : Word := w16 (s.cart.prgRomByte (a + 1)) (s.cart.prgRomByte a)

/-! ## What time and reads leave alone -/

/-- A pulse channel's settings: what only a register write changes, but for the halt bit. -/
def Pulse.settings (p : Pulse) : Pulse :=
  { Pulse.powerOn with
    duty := p.duty, constVol := p.constVol, vol := p.vol, sweepEn := p.sweepEn, sweepPeriod := p.sweepPeriod
    sweepNeg := p.sweepNeg, sweepShift := p.sweepShift }

/-- The APU's settings: what only a register write changes, but for the halt bits (log 13). -/
def Apu.settings (a : Apu) : Apu :=
  { Apu.powerOn with
    enP1 := a.enP1, enP2 := a.enP2, enTri := a.enTri, enNoise := a.enNoise
    p1 := a.p1.settings
    p2 := a.p2.settings
    tri := { Triangle.powerOn with linValue := a.tri.linValue, timerPeriod := a.tri.timerPeriod }
    noise := { Noise.powerOn with
      constVol := a.noise.constVol, vol := a.noise.vol, mode := a.noise.mode, period := a.noise.period }
    dmc := { Dmc.powerOn with
      irqEn := a.dmc.irqEn, loop := a.dmc.loop, rate := a.dmc.rate, startAddr := a.dmc.startAddr
      startLen := a.dmc.startLen }
    fcMode := a.fcMode
    fcInhibit := a.fcInhibit }

/-- The PPU's settings: what only a register write changes. -/
def Ppu.settings (p : Ppu) : Ppu :=
  { Ppu.powerOn with ctrl := p.ctrl, mask := p.mask, t := p.t, fineX := p.fineX, palette := p.palette }

/-- The MMC3's settings: what only a register write changes. -/
def Mmc3.settings (r : Mmc3) : Mmc3 :=
  { Mmc3.powerOn with
    bankSelect := r.bankSelect, bankReg := r.bankReg, mirroring := r.mirroring, ramEnable := r.ramEnable
    ramProtect := r.ramProtect, irqLatch := r.irqLatch, irqEnable := r.irqEnable }

/-- What neither the passage of time nor a bus read nor a DMA changes: every memory but OAM, the settings of every unit,
the parameters, and whether the CPU is halted, fatal or about to reset. Everything else is put to its power-on value here,
so that two states with equal `kept` agree in all of it. -/
def State.kept (s : State) : State :=
  { State.powerOn s.params { s.cart with mmc3 := s.cart.mmc3.settings } with
    halted := s.halted
    resetPending := s.resetPending
    fatal := s.fatal
    wram := s.wram
    ciram := s.ciram
    port0 := { buttons := s.port0.buttons, shift := 0 }
    port1 := { buttons := s.port1.buttons, shift := 0 }
    strobe := s.strobe
    ppu := s.ppu.settings
    apu := s.apu.settings }

/-! ## What a write changes -/

/-- The memories and the units' settings after one write of v at `ea`: the one memory cell that the address selects holds v,
and only the unit that the address belongs to may have changed (R51, R58, R196). -/
structure Stored (ea : Word) (v : Byte) (s t : State) : Prop where
  ramHit : ∀ a, hitsRam ea a → wramByte t a = v
  ramMiss : ∀ a, ¬hitsRam ea a → wramByte t a = wramByte s a
  prgRamHit : ∀ a, hitsPrgRam s ea a → t.cart.prgRamByte a = v
  prgRamMiss : ∀ a, ¬hitsPrgRam s ea a → t.cart.prgRamByte a = s.cart.prgRamByte a
  prgRom : t.cart.prgRom = s.cart.prgRom
  header : t.cart.header = s.cart.header
  mapper : t.cart.mapper = s.cart.mapper
  params : t.params = s.params
  halted : t.halted = s.halted
  resetPending : t.resetPending = s.resetPending
  fatal : t.fatal = s.fatal
  buttons : t.port0.buttons = s.port0.buttons ∧ t.port1.buttons = s.port1.buttons
  mmc3 : ea.toNat < 0x8000 → t.cart.mmc3.settings = s.cart.mmc3.settings
  ppu : ea.toNat < 0x2000 ∨ 0x4000 ≤ ea.toNat →
    t.ppu.settings = s.ppu.settings ∧ t.ciram = s.ciram ∧ t.cart.chr = s.cart.chr ∧ t.cart.fourScreen = s.cart.fourScreen
  apu : ea.toNat < 0x4000 ∨ 0x4018 ≤ ea.toNat → t.apu.settings = s.apu.settings ∧ t.strobe = s.strobe

/-- The stack after bytes are pushed, first byte first, S having been `s.regs.sp`: each lies at its place in page one, every
other byte of work RAM is as before, and so is everything else that is kept (R16, R22). -/
def PushedBytes (vs : List Byte) (s t : State) : Prop :=
  (∀ k v, vs[k]? = some v → wramByte t (stackAddr (s.regs.sp - BitVec.ofNat 8 k)) = v) ∧
    (∀ a, (∀ k, k < vs.length → ¬hitsRam (stackAddr (s.regs.sp - BitVec.ofNat 8 k)) a) →
      wramByte t a = wramByte s a) ∧
    t.kept = { s.kept with wram := t.wram }

/-- The byte that the k-th pull reads, k from 1, before any is made (R16, R22). -/
def pulledByte (s : State) (k : Nat) : Byte := wramByte s (stackAddr (s.regs.sp + BitVec.ofNat 8 k))

/-! ## How an instruction completes, by its access class (R68, R76 to R78) -/

/-- An implied or accumulator instruction completes with registers `f` of the ones it found, PC moved past it (R68). -/
def ImpliedWith (f : Regs → Regs) (i : Instr) (s : State) : Prop :=
  ∃ t, exec i s = .next t ∧ t.regs = f (pastInstr i s.regs) ∧ t.kept = s.kept

/-- A read-class instruction completes with registers `f m`, m its operand: the immediate, the byte its address holds, or,
where a register answers, the byte that its last cycle leaves on the bus (R69, R76). -/
def ReadsWith (f : Byte → Regs → Regs) (i : Instr) (s : State) : Prop :=
  ∃ t m, exec i s = .next t ∧ t.regs = f m (pastInstr i s.regs) ∧ t.kept = s.kept ∧
    (∀ b, operandByte i s = some b → m = b) ∧ (i.mode ≠ .imm → t.cpuBus = m)

/-- A write-class instruction completes by writing `value` of the registers at EA (R77). -/
def StoresWith (value : Regs → Byte) (i : Instr) (s : State) : Prop :=
  ∃ t, exec i s = .next t ∧ t.regs = pastInstr i s.regs ∧ t.cpuBus = value s.regs ∧
    Stored (effAddr i s) (value s.regs) s t

/-- A read-modify-write instruction completes by writing `g carry m` at EA, m the byte read there, with registers `f m r`
(R78). -/
def ModifiesWith (g : Bool → Byte → Byte) (f : Byte → Byte → Regs → Regs) (i : Instr) (s : State) : Prop :=
  ∃ t m, exec i s = .next t ∧ t.regs = f m (g s.regs.p.c m) (pastInstr i s.regs) ∧ t.cpuBus = g s.regs.p.c m ∧
    (∀ b, memByte s (effAddr i s) = some b → m = b) ∧ Stored (effAddr i s) (g s.regs.p.c m) s t

/-! ## Invariants (R176) -/

/-- The PPU's position, counters and latches stay in range (R176, R220, R237, R252). -/
def PpuInv (s : State) : Prop :=
  s.ppu.scanline ≤ 261 ∧ s.ppu.dot ≤ 340 ∧ s.ppu.evalCount ≤ 8 ∧ s.ppu.lineCount ≤ 8

/-- The APU's counters stay in range (R176, R260, R268, R278), and no write is left to commit (log 13). -/
def ApuInv (s : State) : Prop :=
  s.apu.p1.length ≤ 254 ∧ s.apu.p2.length ≤ 254 ∧ s.apu.tri.length ≤ 254 ∧ s.apu.noise.length ≤ 254 ∧
    1 ≤ s.apu.dmc.bits ∧ s.apu.dmc.bits ≤ 8 ∧ s.apu.late = none ∧
    s.apu.noise.lfsr ≠ 0 ∧ (∀ n, s.apu.fcResetIn = some n → 1 ≤ n ∧ n ≤ 4) ∧
    (s.dmcDma = true → s.apu.dmc.buffer = none ∧ s.apu.dmc.remaining ≠ 0)

/-- Every memory keeps its canonical form, and the RAMs list no cell beyond their size (R43). -/
def MemoryInv (s : State) : Prop :=
  (s.wram.wf ∧ s.wram.below 2048) ∧ (s.ciram.wf ∧ s.ciram.below 2048) ∧
    (s.cart.prgRam.wf ∧ s.cart.prgRam.below 8192) ∧ (s.cart.fourScreen.wf ∧ s.cart.fourScreen.below 4096) ∧
    s.cart.prgRom.wf ∧ s.cart.chr.wf ∧ (s.cart.chrIsRam = true → s.cart.chr.below 8192)

end Sys2Proof.Machine
end

