-- ==== Sys2Proof/Certificates/Slice0/Obligations.lean ====
section
/-!
DEFINITION. The statements for the provers. Each docstring names the rules of spec/ its statement comes from. An instruction's
statement says that `exec` answers a next state, its registers, its stores, and that the rest is as before: `State.kept`
(Sys2Proof/Safety.lean) is everything that neither time nor a bus read changes. What time and the device registers do is in
the statements about them.
-/

open Sys2Proof Sys2Proof.Machine

/-! ## Encoding -/

/-- Decoding the bytes of an instruction gives it back and leaves the bytes after them, for every operand of all 256
instructions (R65, R66, R80, R82). -/
def Obligations.EncodeThenDecode : Prop :=
  ∀ (i : Instr) (rest : List Byte), decode (encode i ++ rest) = .ok (i, rest)

/-- Bytes that decode are the encoding of what they decode to, so no two byte strings mean one instruction; and the only
bytes rejected are none, or fewer than the opcode's length (R66, R80, R82). -/
def Obligations.DecodeThenEncode : Prop :=
  (∀ (bytes rest : List Byte) (i : Instr), decode bytes = .ok (i, rest) → bytes = encode i ++ rest) ∧
    (∀ (op : Byte) (rest : List Byte), operandCount op ≤ rest.length → ∃ r, decode (op :: rest) = .ok r)

/-- Words written out from the opcode map of R80, one of each family. -/
def Obligations.DecodesTheseWords : Prop :=
  decodeTableWord 16 0x42A9 = some (.ldaImm 0x42) ∧ decodeTableWord 24 0x12348D = some (.staAbs 0x34 0x12) ∧
    decodeTableWord 8 0xAA = some .tax ∧ decodeTableWord 8 0x48 = some .pha ∧
    decodeTableWord 16 0x1071 = some (.adcIzy 0x10) ∧ decodeTableWord 24 0x0300FE = some (.incAbx 0x00 0x03) ∧
    decodeTableWord 8 0x0A = some .aslAcc ∧ decodeTableWord 16 0xFED0 = some (.bne 0xFE) ∧
    decodeTableWord 24 0x12FF6C = some (.jmpInd 0xFF 0x12) ∧ decodeTableWord 8 0x58 = some .cli ∧
    decodeTableWord 16 0x2097 = some (.saxZpy 0x20) ∧ decodeTableWord 8 0xF2 = some .jamF2

/-- A step runs the instruction whose bytes lie in plain memory at PC. JSR fetches its third byte after its pushes, so for it
that byte must not be one of the two stack bytes it writes (R48, R62, R67, R128, R288). -/
def Obligations.StepRunsDecodedInstruction : Prop :=
  ∀ (s : State) (i : Instr), AtFetch s →
    (∀ k b, (encode i)[k]? = some b → memByte s (s.regs.pc + BitVec.ofNat 16 k) = some b) →
    (i.mnemonic = .jsr → ¬hitsRam (stackAddr s.regs.sp) (s.regs.pc + 2) ∧
      ¬hitsRam (stackAddr (s.regs.sp - 1)) (s.regs.pc + 2)) →
    step s = exec i s

/-! ## Loads, stores, transfers, stack -/

/-- LDA, LDX, LDY and LAX in every mode: the operand goes to the register (LAX: A and X), N and Z follow it (R88, R89, R90,
R158). -/
def Obligations.LoadResults : Prop :=
  ∀ (v z lo hi : Byte) (s : State),
    (∀ i ∈ [Instr.ldaImm v, .ldaZp z, .ldaZpx z, .ldaAbs lo hi, .ldaAbx lo hi, .ldaAby lo hi, .ldaIzx z, .ldaIzy z],
      ReadsWith (fun m r => { r with a := m, p := withNZ m r.p }) i s) ∧
    (∀ i ∈ [Instr.ldxImm v, .ldxZp z, .ldxZpy z, .ldxAbs lo hi, .ldxAby lo hi],
      ReadsWith (fun m r => { r with x := m, p := withNZ m r.p }) i s) ∧
    (∀ i ∈ [Instr.ldyImm v, .ldyZp z, .ldyZpx z, .ldyAbs lo hi, .ldyAbx lo hi],
      ReadsWith (fun m r => { r with y := m, p := withNZ m r.p }) i s) ∧
    (∀ i ∈ [Instr.laxZp z, .laxZpy z, .laxAbs lo hi, .laxAby lo hi, .laxIzx z, .laxIzy z], Runs i s →
      ReadsWith (fun m r => { r with a := m, x := m, p := withNZ m r.p }) i s)

/-- STA, STX, STY and SAX in every mode: the value is written at EA and nothing else of the registers or memories changes
(R77, R91, R92, R93, R157). -/
def Obligations.StoreResults : Prop :=
  ∀ (z lo hi : Byte) (s : State),
    (∀ i ∈ [Instr.staZp z, .staZpx z, .staAbs lo hi, .staAbx lo hi, .staAby lo hi, .staIzx z, .staIzy z],
      StoresWith (fun r => r.a) i s) ∧
    (∀ i ∈ [Instr.stxZp z, .stxZpy z, .stxAbs lo hi], StoresWith (fun r => r.x) i s) ∧
    (∀ i ∈ [Instr.styZp z, .styZpx z, .styAbs lo hi], StoresWith (fun r => r.y) i s) ∧
    (∀ i ∈ [Instr.saxZp z, .saxZpy z, .saxAbs lo hi, .saxIzx z], Runs i s → StoresWith (fun r => r.a &&& r.x) i s)

/-- The six transfers; TXS alone sets no flag (R94 to R99). -/
def Obligations.TransferResults : Prop :=
  ∀ s : State,
    ImpliedWith (fun r => { r with x := r.a, p := withNZ r.a r.p }) .tax s ∧
    ImpliedWith (fun r => { r with y := r.a, p := withNZ r.a r.p }) .tay s ∧
    ImpliedWith (fun r => { r with a := r.x, p := withNZ r.x r.p }) .txa s ∧
    ImpliedWith (fun r => { r with a := r.y, p := withNZ r.y r.p }) .tya s ∧
    ImpliedWith (fun r => { r with x := r.sp, p := withNZ r.sp r.p }) .tsx s ∧
    ImpliedWith (fun r => { r with sp := r.x }) .txs s

/-- PHA, PHP, PLA and PLP: the byte pushed or pulled, S, and the flags, with S wrapping in page one (R22, R26, R27, R100 to
R103). -/
def Obligations.StackResults : Prop :=
  ∀ s : State,
    (∃ t, exec .pha s = .next t ∧ t.regs = { pastInstr .pha s.regs with sp := s.regs.sp - 1 } ∧
      PushedBytes [s.regs.a] s t) ∧
    (∃ t, exec .php s = .next t ∧ t.regs = { pastInstr .php s.regs with sp := s.regs.sp - 1 } ∧
      PushedBytes [statusByte true s.regs.p] s t) ∧
    (∃ t, exec .pla s = .next t ∧ t.kept = s.kept ∧
      t.regs = { pastInstr .pla s.regs with
        sp := s.regs.sp + 1, a := pulledByte s 1, p := withNZ (pulledByte s 1) s.regs.p }) ∧
    (∃ t, exec .plp s = .next t ∧ t.kept = s.kept ∧
      t.regs = { pastInstr .plp s.regs with
        sp := s.regs.sp + 1
        p :=
          { n := (pulledByte s 1).getLsbD 7, v := (pulledByte s 1).getLsbD 6, d := (pulledByte s 1).getLsbD 3
            i := (pulledByte s 1).getLsbD 2, z := (pulledByte s 1).getLsbD 1, c := (pulledByte s 1).getLsbD 0 } })

/-! ## Arithmetic, logic, compares -/

/-- ADC, SBC and USBC in every mode, as arithmetic on numbers: C is the unsigned carry (no borrow), V says that the signed
result does not fit, and D has no part (R32, R104, R105, R107, R108, R165). -/
def Obligations.AddSubtractResults : Prop :=
  ∀ (v z lo hi : Byte) (s : State),
    let sum (m : Byte) (r : Regs) : Int := r.a.toInt + m.toInt + r.p.c.toNat
    let difference (m : Byte) (r : Regs) : Int := r.a.toInt - m.toInt - (1 - r.p.c.toNat)
    let result (n : Int) (c : Bool) (r : Regs) : Regs :=
      { r with
        a := BitVec.ofInt 8 n
        p := { withNZ (BitVec.ofInt 8 n) r.p with c := c, v := decide (n < -128 ∨ 127 < n) } }
    (∀ i ∈ [Instr.adcImm v, .adcZp z, .adcZpx z, .adcAbs lo hi, .adcAbx lo hi, .adcAby lo hi, .adcIzx z, .adcIzy z],
      ReadsWith (fun m r => result (sum m r) (decide (255 < r.a.toNat + m.toNat + r.p.c.toNat)) r) i s) ∧
    (∀ i ∈ [Instr.sbcImm v, .sbcZp z, .sbcZpx z, .sbcAbs lo hi, .sbcAbx lo hi, .sbcAby lo hi, .sbcIzx z, .sbcIzy z,
        .usbcImm v], Runs i s →
      ReadsWith (fun m r => result (difference m r) (decide (m.toNat + 1 ≤ r.a.toNat + r.p.c.toNat)) r) i s)

/-- AND, ORA and EOR in every mode, and BIT, whose N and V come from the operand (R109 to R112). -/
def Obligations.LogicResults : Prop :=
  ∀ (v z lo hi : Byte) (s : State),
    (∀ i ∈ [Instr.andImm v, .andZp z, .andZpx z, .andAbs lo hi, .andAbx lo hi, .andAby lo hi, .andIzx z, .andIzy z],
      ReadsWith (fun m r => { r with a := r.a &&& m, p := withNZ (r.a &&& m) r.p }) i s) ∧
    (∀ i ∈ [Instr.oraImm v, .oraZp z, .oraZpx z, .oraAbs lo hi, .oraAbx lo hi, .oraAby lo hi, .oraIzx z, .oraIzy z],
      ReadsWith (fun m r => { r with a := r.a ||| m, p := withNZ (r.a ||| m) r.p }) i s) ∧
    (∀ i ∈ [Instr.eorImm v, .eorZp z, .eorZpx z, .eorAbs lo hi, .eorAbx lo hi, .eorAby lo hi, .eorIzx z, .eorIzy z],
      ReadsWith (fun m r => { r with a := r.a ^^^ m, p := withNZ (r.a ^^^ m) r.p }) i s) ∧
    (∀ i ∈ [Instr.bitZp z, .bitAbs lo hi],
      ReadsWith (fun m r =>
        { r with p := { r.p with z := decide (r.a &&& m = 0), n := m.getLsbD 7, v := m.getLsbD 6 } }) i s)

/-- CMP, CPX and CPY in every mode: C is "not below" for unsigned numbers, N and Z follow the 8-bit difference, no register
changes (R106, R113 to R115). -/
def Obligations.CompareResults : Prop :=
  ∀ (v z lo hi : Byte) (s : State),
    let compared (reg m : Byte) (r : Regs) : Regs :=
      { r with p := { withNZ (reg - m) r.p with c := decide (m.toNat ≤ reg.toNat) } }
    (∀ i ∈ [Instr.cmpImm v, .cmpZp z, .cmpZpx z, .cmpAbs lo hi, .cmpAbx lo hi, .cmpAby lo hi, .cmpIzx z, .cmpIzy z],
      ReadsWith (fun m r => compared r.a m r) i s) ∧
    (∀ i ∈ [Instr.cpxImm v, .cpxZp z, .cpxAbs lo hi], ReadsWith (fun m r => compared r.x m r) i s) ∧
    (∀ i ∈ [Instr.cpyImm v, .cpyZp z, .cpyAbs lo hi], ReadsWith (fun m r => compared r.y m r) i s)

/-- INX, INY, DEX, DEY and the accumulator shifts, as arithmetic on numbers (R118 to R125). -/
def Obligations.RegisterModifyResults : Prop :=
  ∀ s : State,
    let shifted (n : Nat) (c : Bool) (r : Regs) : Regs :=
      { r with a := BitVec.ofNat 8 n, p := { withNZ (BitVec.ofNat 8 n) r.p with c := c } }
    ImpliedWith (fun r => { r with x := r.x + 1, p := withNZ (r.x + 1) r.p }) .inx s ∧
    ImpliedWith (fun r => { r with y := r.y + 1, p := withNZ (r.y + 1) r.p }) .iny s ∧
    ImpliedWith (fun r => { r with x := r.x - 1, p := withNZ (r.x - 1) r.p }) .dex s ∧
    ImpliedWith (fun r => { r with y := r.y - 1, p := withNZ (r.y - 1) r.p }) .dey s ∧
    ImpliedWith (fun r => shifted (2 * r.a.toNat) (r.a.getLsbD 7) r) .aslAcc s ∧
    ImpliedWith (fun r => shifted (r.a.toNat / 2) (r.a.getLsbD 0) r) .lsrAcc s ∧
    ImpliedWith (fun r => shifted (2 * r.a.toNat + r.p.c.toNat) (r.a.getLsbD 7) r) .rolAcc s ∧
    ImpliedWith (fun r => shifted (128 * r.p.c.toNat + r.a.toNat / 2) (r.a.getLsbD 0) r) .rorAcc s

/-- INC, DEC and the memory shifts in every mode: what is written, and the flags (R78, R116, R117, R122 to R125). -/
def Obligations.MemoryModifyResults : Prop :=
  ∀ (z lo hi : Byte) (s : State),
    let flagsOnly (_ result : Byte) (r : Regs) : Regs := { r with p := withNZ result r.p }
    let carryFrom (k : Nat) (m result : Byte) (r : Regs) : Regs :=
      { r with p := { withNZ result r.p with c := m.getLsbD k } }
    (∀ i ∈ [Instr.incZp z, .incZpx z, .incAbs lo hi, .incAbx lo hi], ModifiesWith (fun _ m => m + 1) flagsOnly i s) ∧
    (∀ i ∈ [Instr.decZp z, .decZpx z, .decAbs lo hi, .decAbx lo hi], ModifiesWith (fun _ m => m - 1) flagsOnly i s) ∧
    (∀ i ∈ [Instr.aslZp z, .aslZpx z, .aslAbs lo hi, .aslAbx lo hi],
      ModifiesWith (fun _ m => BitVec.ofNat 8 (2 * m.toNat)) (carryFrom 7) i s) ∧
    (∀ i ∈ [Instr.lsrZp z, .lsrZpx z, .lsrAbs lo hi, .lsrAbx lo hi],
      ModifiesWith (fun _ m => BitVec.ofNat 8 (m.toNat / 2)) (carryFrom 0) i s) ∧
    (∀ i ∈ [Instr.rolZp z, .rolZpx z, .rolAbs lo hi, .rolAbx lo hi],
      ModifiesWith (fun c m => BitVec.ofNat 8 (2 * m.toNat + c.toNat)) (carryFrom 7) i s) ∧
    (∀ i ∈ [Instr.rorZp z, .rorZpx z, .rorAbs lo hi, .rorAbx lo hi],
      ModifiesWith (fun c m => BitVec.ofNat 8 (128 * c.toNat + m.toNat / 2)) (carryFrom 0) i s)

/-! ## Control transfer and flags -/

/-- JMP absolute goes to its operand; JMP indirect through a pointer whose high byte comes from the same page (R50, R126,
R127). A pointer byte that a device register answers is any byte. -/
def Obligations.JumpResults : Prop :=
  ∀ (lo hi : Byte) (s : State),
    (∃ t, exec (.jmpAbs lo hi) s = .next t ∧ t.regs = { s.regs with pc := w16 hi lo } ∧ t.kept = s.kept) ∧
    (∃ (t : State) (l h : Byte), exec (.jmpInd lo hi) s = .next t ∧ t.regs = { s.regs with pc := w16 h l } ∧ t.kept = s.kept ∧
      (∀ b, memByte s (w16 hi lo) = some b → l = b) ∧ (∀ b, memByte s (w16 hi (lo + 1)) = some b → h = b))

/-- JSR pushes the address of its last byte and goes to its operand; RTS pulls an address and goes to the one after it
(R128, R129). -/
def Obligations.SubroutineResults : Prop :=
  ∀ (lo hi : Byte) (s : State),
    (∃ t, exec (.jsr lo hi) s = .next t ∧ t.regs = { s.regs with pc := w16 hi lo, sp := s.regs.sp - 2 } ∧
      PushedBytes [hiByte (s.regs.pc + 2), loByte (s.regs.pc + 2)] s t) ∧
    (∃ t, exec .rts s = .next t ∧ t.kept = s.kept ∧
      t.regs = { s.regs with pc := w16 (pulledByte s 2) (pulledByte s 1) + 1, sp := s.regs.sp + 2 })

/-- The eight branches: to the address after the branch plus its signed offset when the condition holds, else past the
branch; no flag changes (R130 to R138). -/
def Obligations.BranchResults : Prop :=
  ∀ (off : Byte) (s : State), ∀ i ∈ [Instr.bpl off, .bmi off, .bvc off, .bvs off, .bcc off, .bcs off, .bne off, .beq off],
    ∃ t, exec i s = .next t ∧ t.kept = s.kept ∧
      t.regs = { s.regs with pc := if branchTaken i s.regs.p then branchTarget i s else s.regs.pc + 2 }

/-- BRK pushes PC + 2 and P with B = 1, sets I alone, and goes through the IRQ vector, or the NMI vector if an NMI takes it
over, which none does when no NMI is pending and PPUCTRL bit 7 is clear; no interrupt is chosen after it (R139, R178, R182,
R184). -/
def Obligations.BrkResult : Prop :=
  ∀ s : State, ∃ (t : State) (takenOver : Bool), exec .brk s = .next t ∧ t.intNext = none ∧
    (s.nmiPending = false → s.ppu.ctrl.getLsbD 7 = false → takenOver = false) ∧
    t.regs = { s.regs with
      sp := s.regs.sp - 3
      pc := vectorAt s (if takenOver then 0xFFFA else 0xFFFE)
      p := { s.regs.p with i := true } } ∧
    PushedBytes [hiByte (s.regs.pc + 2), loByte (s.regs.pc + 2), statusByte true s.regs.p] s t

/-- RTI pulls P and then PC, and goes to that PC (R27, R140, R187). -/
def Obligations.RtiResult : Prop :=
  ∀ s : State, ∃ t, exec .rti s = .next t ∧ t.kept = s.kept ∧
    t.regs = { s.regs with
      sp := s.regs.sp + 3
      pc := w16 (pulledByte s 3) (pulledByte s 2)
      p :=
        { n := (pulledByte s 1).getLsbD 7, v := (pulledByte s 1).getLsbD 6, d := (pulledByte s 1).getLsbD 3
          i := (pulledByte s 1).getLsbD 2, z := (pulledByte s 1).getLsbD 1, c := (pulledByte s 1).getLsbD 0 } }

/-- The flag instructions and NOP (R141 to R148). -/
def Obligations.FlagInstructionResults : Prop :=
  ∀ s : State,
    ImpliedWith (fun r => { r with p := { r.p with c := false } }) .clc s ∧
    ImpliedWith (fun r => { r with p := { r.p with c := true } }) .sec s ∧
    ImpliedWith (fun r => { r with p := { r.p with i := false } }) .cli s ∧
    ImpliedWith (fun r => { r with p := { r.p with i := true } }) .sei s ∧
    ImpliedWith (fun r => { r with p := { r.p with v := false } }) .clv s ∧
    ImpliedWith (fun r => { r with p := { r.p with d := false } }) .cld s ∧
    ImpliedWith (fun r => { r with p := { r.p with d := true } }) .sed s ∧
    ImpliedWith (fun r => r) .nop s

/-! ## Unofficial opcodes (strict mode off) -/

/-- The 27 unofficial NOPs change no register or flag; those with an address read it (R150). -/
def Obligations.UnofficialNopResults : Prop :=
  ∀ (v z lo hi : Byte) (s : State),
    (∀ i ∈ [Instr.nop1A, .nop3A, .nop5A, .nop7A, .nopDA, .nopFA], Runs i s → ImpliedWith (fun r => r) i s) ∧
    (∀ i ∈ [Instr.nopImm80 v, .nopImm82 v, .nopImm89 v, .nopImmC2 v, .nopImmE2 v, .nopZp04 z, .nopZp44 z, .nopZp64 z,
        .nopZpx14 z, .nopZpx34 z, .nopZpx54 z, .nopZpx74 z, .nopZpxD4 z, .nopZpxF4 z, .nopAbs lo hi, .nopAbx1C lo hi,
        .nopAbx3C lo hi, .nopAbx5C lo hi, .nopAbx7C lo hi, .nopAbxDC lo hi, .nopAbxFC lo hi], Runs i s →
      ReadsWith (fun _ r => r) i s)

/-- The 12 JAM opcodes halt the CPU with PC past the opcode and change nothing else (R149). -/
def Obligations.JamHalts : Prop :=
  ∀ (s : State), ∀ i ∈ [Instr.jam02, .jam12, .jam22, .jam32, .jam42, .jam52, .jam62, .jam72, .jam92, .jamB2, .jamD2,
      .jamF2], Runs i s →
    ∃ t, exec i s = .next t ∧ t.halted = true ∧ t.regs = pastInstr i s.regs ∧ t.kept = { s.kept with halted := true }

/-- SLO, RLA, SRE, RRA, DCP and ISC in every mode: the byte written and what A and the flags become from it (R151 to
R156). -/
def Obligations.CombinedModifyResults : Prop :=
  ∀ (z lo hi : Byte) (s : State),
    let added (n : Int) (c : Bool) (r : Regs) : Regs :=
      { r with
        a := BitVec.ofInt 8 n
        p := { withNZ (BitVec.ofInt 8 n) r.p with c := c, v := decide (n < -128 ∨ 127 < n) } }
    (∀ i ∈ [Instr.sloZp z, .sloZpx z, .sloAbs lo hi, .sloAbx lo hi, .sloAby lo hi, .sloIzx z, .sloIzy z], Runs i s →
      ModifiesWith (fun _ m => BitVec.ofNat 8 (2 * m.toNat))
        (fun m w r => { r with a := r.a ||| w, p := { withNZ (r.a ||| w) r.p with c := m.getLsbD 7 } }) i s) ∧
    (∀ i ∈ [Instr.rlaZp z, .rlaZpx z, .rlaAbs lo hi, .rlaAbx lo hi, .rlaAby lo hi, .rlaIzx z, .rlaIzy z], Runs i s →
      ModifiesWith (fun c m => BitVec.ofNat 8 (2 * m.toNat + c.toNat))
        (fun m w r => { r with a := r.a &&& w, p := { withNZ (r.a &&& w) r.p with c := m.getLsbD 7 } }) i s) ∧
    (∀ i ∈ [Instr.sreZp z, .sreZpx z, .sreAbs lo hi, .sreAbx lo hi, .sreAby lo hi, .sreIzx z, .sreIzy z], Runs i s →
      ModifiesWith (fun _ m => BitVec.ofNat 8 (m.toNat / 2))
        (fun m w r => { r with a := r.a ^^^ w, p := { withNZ (r.a ^^^ w) r.p with c := m.getLsbD 0 } }) i s) ∧
    (∀ i ∈ [Instr.rraZp z, .rraZpx z, .rraAbs lo hi, .rraAbx lo hi, .rraAby lo hi, .rraIzx z, .rraIzy z], Runs i s →
      ModifiesWith (fun c m => BitVec.ofNat 8 (128 * c.toNat + m.toNat / 2))
        (fun m w r => added (r.a.toInt + w.toInt + (m.getLsbD 0).toNat)
          (decide (255 < r.a.toNat + w.toNat + (m.getLsbD 0).toNat)) r) i s) ∧
    (∀ i ∈ [Instr.dcpZp z, .dcpZpx z, .dcpAbs lo hi, .dcpAbx lo hi, .dcpAby lo hi, .dcpIzx z, .dcpIzy z], Runs i s →
      ModifiesWith (fun _ m => m - 1)
        (fun _ w r => { r with p := { withNZ (r.a - w) r.p with c := decide (w.toNat ≤ r.a.toNat) } }) i s) ∧
    (∀ i ∈ [Instr.iscZp z, .iscZpx z, .iscAbs lo hi, .iscAbx lo hi, .iscAby lo hi, .iscIzx z, .iscIzy z], Runs i s →
      ModifiesWith (fun _ m => m + 1)
        (fun _ w r => added (r.a.toInt - w.toInt - (1 - r.p.c.toNat))
          (decide (w.toNat + 1 ≤ r.a.toNat + r.p.c.toNat)) r) i s)

/-- ANC, ALR, ARR, SBX and LAS (R159, R160, R161, R164, R166). -/
def Obligations.ImmediateCombinationResults : Prop :=
  ∀ (v lo hi : Byte) (s : State),
    (∀ i ∈ [Instr.ancImm0B v, .ancImm2B v], Runs i s →
      ReadsWith (fun m r =>
        { r with a := r.a &&& m, p := { withNZ (r.a &&& m) r.p with c := (r.a &&& m).getLsbD 7 } }) i s) ∧
    (Runs (.alrImm v) s → ReadsWith (fun m r =>
      let w : Byte := BitVec.ofNat 8 ((r.a &&& m).toNat / 2)
      { r with a := w, p := { withNZ w r.p with c := (r.a &&& m).getLsbD 0 } }) (.alrImm v) s) ∧
    (Runs (.arrImm v) s → ReadsWith (fun m r =>
      let w : Byte := BitVec.ofNat 8 (128 * r.p.c.toNat + (r.a &&& m).toNat / 2)
      { r with a := w, p := { withNZ w r.p with c := w.getLsbD 6, v := w.getLsbD 6 ^^ w.getLsbD 5 } }) (.arrImm v) s) ∧
    (Runs (.sbxImm v) s → ReadsWith (fun m r =>
      let w : Byte := (r.a &&& r.x) - m
      { r with x := w, p := { withNZ w r.p with c := decide (m.toNat ≤ (r.a &&& r.x).toNat) } }) (.sbxImm v) s) ∧
    (Runs (.lasAby lo hi) s → ReadsWith (fun m r =>
      let w : Byte := m &&& r.sp
      { r with a := w, x := w, sp := w, p := withNZ w r.p }) (.lasAby lo hi) s)

/-- ANE and LXA: the result under some 8-bit draw, which no law fixes (R162, R163). -/
def Obligations.UnstableImmediateResults : Prop :=
  ∀ (v : Byte) (s : State),
    (Runs (.aneImm v) s → ∃ (t : State) (magic : Byte), exec (.aneImm v) s = .next t ∧ t.kept = s.kept ∧
      t.regs = { pastInstr (.aneImm v) s.regs with
        a := (s.regs.a ||| magic) &&& s.regs.x &&& v
        p := withNZ ((s.regs.a ||| magic) &&& s.regs.x &&& v) s.regs.p }) ∧
    (Runs (.lxaImm v) s → ∃ (t : State) (magic : Byte), exec (.lxaImm v) s = .next t ∧ t.kept = s.kept ∧
      t.regs = { pastInstr (.lxaImm v) s.regs with
        a := (s.regs.a ||| magic) &&& v
        x := (s.regs.a ||| magic) &&& v
        p := withNZ ((s.regs.a ||| magic) &&& v) s.regs.p })

/-- SHA, SHX, SHY and TAS: the value is ANDed with the base's high byte plus 1 when no DMA is due, and any byte otherwise; on
a page cross it replaces the high byte of the address (R167 to R171). -/
def Obligations.UnstableStoreResults : Prop :=
  ∀ (z lo hi : Byte) (s : State),
    let storesHigh (value : Regs → Byte) (newSp : Regs → Byte) (i : Instr) : Prop :=
      ∃ (t : State) (v : Byte), exec i s = .next t ∧ t.regs = { pastInstr i s.regs with sp := newSp s.regs } ∧
        Stored (if pageCrossed i s then w16 v (loByte (effAddr i s)) else effAddr i s) v s t ∧
        (NoDma s → v = value s.regs &&& (hiByte (baseIndex i s).1 + 1))
    (∀ i ∈ [Instr.shaAby lo hi, .shaIzy z], Runs i s → storesHigh (fun r => r.a &&& r.x) (fun r => r.sp) i) ∧
    (Runs (.shxAby lo hi) s → storesHigh (fun r => r.x) (fun r => r.sp) (.shxAby lo hi)) ∧
    (Runs (.shyAbx lo hi) s → storesHigh (fun r => r.y) (fun r => r.sp) (.shyAbx lo hi)) ∧
    (Runs (.tasAby lo hi) s → storesHigh (fun r => r.a &&& r.x) (fun r => r.a &&& r.x) (.tasAby lo hi))

/-- In strict mode each of the 105 unofficial opcodes fetches its opcode and is then fatal, and the next step faults; without
strict mode no opcode sets a fatal condition (R83, R173, R174). -/
def Obligations.StrictModeIsFatal : Prop :=
  (∀ (i : Instr) (s : State), i.official = false → s.params.strictOpcodes = true →
    ∃ t, exec i s = .next t ∧ t.fatal = some (.unimplementedOpcode s.regs.pc i.opcode) ∧
      t.regs = { s.regs with pc := s.regs.pc + 1 } ∧ t.kept = { s.kept with fatal := t.fatal } ∧
      (memByte s s.regs.pc ≠ none → t.cpuBus = (memByte s s.regs.pc).getD 0) ∧
      (NoDma s → t.cpuCycle = s.cpuCycle + 1) ∧ step t = .fault (.fatal (.unimplementedOpcode s.regs.pc i.opcode))) ∧
  (∀ (i : Instr) (s t : State), s.params.strictOpcodes = false → exec i s = .next t → t.fatal = s.fatal)

/-! ## Cycles and bus accesses -/

/-- Without DMA every instruction takes the cycles of the table, one more on a page cross where the table says so, and one or
two more for a taken branch (R79, R130, R288, R304). -/
def Obligations.InstructionCycles : Prop :=
  ∀ (i : Instr) (s t : State), NoDma s → Runs i s → exec i s = .next t → t.cpuCycle = s.cpuCycle + cyclesFor i s

/-- The last bus cycle of a read-class or write-class instruction with an address is a read or write of EA with all its side
effects; that of a read-modify-write instruction follows a write of the unmodified operand to the same address (R17, R53,
R76, R77, R78). -/
def Obligations.LastCyclesOfAnInstruction : Prop :=
  ∀ (i : Instr) (s : State), Runs i s → i.mode ≠ .imm → i.mode ≠ .imp → i.mode ≠ .acc →
    (i.mnemonic ∈ [Mnemonic.lda, .ldx, .ldy, .adc, .sbc, .and, .ora, .eor, .bit, .cmp, .cpx, .cpy, .nop, .lax, .las] →
      ∃ (t u : State), exec i s = .next t ∧ u.kept = s.kept ∧ t = { cpuRead (effAddr i s) u with regs := t.regs }) ∧
    (i.mnemonic ∈ [Mnemonic.sta, .stx, .sty, .sax] →
      ∃ (t u : State) (v : Byte), exec i s = .next t ∧ u.kept = s.kept ∧ t = { cpuWrite (effAddr i s) v u with regs := t.regs }) ∧
    (i.mnemonic ∈ [Mnemonic.inc, .dec, .asl, .lsr, .rol, .ror, .slo, .rla, .sre, .rra, .dcp, .isc] →
      ∃ (t u : State) (v : Byte), exec i s = .next t ∧ u.kept = s.kept ∧
        t = { cpuWrite (effAddr i s) v (poll (cpuWrite (effAddr i s) u.cpuBus u)) with regs := t.regs } ∧
        (∀ b, memByte s (effAddr i s) = some b → u.cpuBus = b))

/-! ## Interrupts, reset, halt, fatal -/

/-- When the last poll chose an interrupt, the step is its sequence: PC and P with B = 0 pushed, I set, PC from the NMI or
the IRQ vector, no poll; an NMI may take over an IRQ sequence, but none does when no NMI is pending and PPUCTRL bit 7 is
clear (R178, R181, R182, R184, R185). -/
def Obligations.InterruptEntry : Prop :=
  ∀ (s : State) (kind : IntKind), s.fatal = none → s.resetPending = false → s.halted = false → s.intNext = some kind →
    ∃ (t : State) (nmi : Bool), step s = .next t ∧ t.intNext = none ∧ (kind = .nmi → nmi = true) ∧
      (kind = .irq → s.nmiPending = false → s.ppu.ctrl.getLsbD 7 = false → nmi = false) ∧
      t.regs = { s.regs with
        sp := s.regs.sp - 3
        pc := vectorAt s (if nmi then 0xFFFA else 0xFFFE)
        p := { s.regs.p with i := true } } ∧
      PushedBytes [hiByte s.regs.pc, loByte s.regs.pc, statusByte false s.regs.p] s t ∧
      (NoDma s → t.cpuCycle = s.cpuCycle + 7)

/-- An NMI that is pending takes over a BRK: the NMI vector, with B = 1 in the pushed P. The code lies in plain memory and no
DMA is due, so no read of a PPU register can drop the NMI (R139, R184, R240). -/
def Obligations.NmiTakesOverBrk : Prop :=
  ∀ s t : State, s.nmiPending = true → NoDma s → memByte s s.regs.pc ≠ none → memByte s (s.regs.pc + 1) ≠ none →
    exec .brk s = .next t →
    t.regs.pc = vectorAt s 0xFFFA ∧ pulledByte t 1 = statusByte true s.regs.p

/-- The reset sequence: S lowered by 3 with nothing written, I set, PC from the reset vector, no interrupt chosen; 7 cycles.
After power-on S is $FD (R298, R299). -/
def Obligations.ResetSequenceResult : Prop :=
  (∀ s : State, s.fatal = none → s.resetPending = true →
    ∃ t, step s = .next t ∧ t.intNext = none ∧
      t.kept = { s.kept with resetPending := false, halted := false } ∧
      t.regs = { s.regs with
        sp := s.regs.sp - 3, pc := vectorAt s 0xFFFC, p := { s.regs.p with i := true } } ∧
      (NoDma s → t.cpuCycle = s.cpuCycle + 7)) ∧
  (∀ (params : Params) (cart : Cartridge),
    ∃ t, step (State.powerOn params cart) = .next t ∧ t.cpuCycle = 7 ∧
      t.regs =
        { a := 0, x := 0, y := 0, sp := 0xFD, pc := vectorAt (State.powerOn params cart) 0xFFFC
          p := { n := false, v := false, d := false, i := true, z := false, c := false } })

/-- An instruction that starts with I = 1 and no interrupt chosen never leads to an IRQ, but for RTI, whose restored I counts:
CLI and PLP poll with the I they found (R30, R143, R182, R187). -/
def Obligations.MaskedIrqIsNotChosen : Prop :=
  ∀ (i : Instr) (s t : State), s.regs.p.i = true → s.intNext = none → i ≠ .rti → exec i s = .next t →
    t.intNext ≠ some .irq

/-- The sampling at the end of every cycle, of a read, a write or a DMA: the NMI latch takes a rising edge of the PPU's
output, and the IRQ line is the OR of its three sources (R178, R179, R180, R243). The counters of log 34, which the rules do not
name, are part of u. -/
def Obligations.InterruptSampling : Prop :=
  ∀ (access : State → State) (s : State),
    ∃ u : State, cycle access s = { u with
        nmiPending := u.nmiPending || ((u.ppu.vblankFlag && u.ppu.ctrl.getLsbD 7) && !u.nmiPrev)
        nmiPrev := u.ppu.vblankFlag && u.ppu.ctrl.getLsbD 7
        irqLine := u.apu.frameIrq || u.apu.dmcIrq || (u.cart.mapper == .mmc3 && u.cart.mmc3.irqFlag)
        cpuCycle := u.cpuCycle + 1 } ∧
      (let v := access (ppuDots s.params.ppuPhase.val s)
       u.regs = v.regs ∧ u.nmiPending = v.nmiPending ∧ u.nmiPrev = v.nmiPrev ∧ u.cpuCycle = v.cpuCycle)

/-- A halted CPU: one read of $FFFF a step, every register and everything kept as it was, still halted, and no interrupt
taken (R38, R149). -/
def Obligations.HaltedStepResult : Prop :=
  ∀ s : State, s.fatal = none → s.resetPending = false → s.halted = true →
    ∃ t, step s = .next t ∧ t.regs = s.regs ∧ t.kept = s.kept ∧ t.halted = true ∧
      t.cpuBus = s.cart.prgRomByte 0xFFFF ∧ (NoDma s → t.cpuCycle = s.cpuCycle + 1)

/-- Without strict mode no step sets a fatal condition, a fatal state takes no step, and only a JAM halts the CPU (R149, R173
to R176). -/
def Obligations.OnlyStrictModeIsFatalOnlyJamHalts : Prop :=
  (∀ s t : State, s.params.strictOpcodes = false → step s = .next t → t.fatal = none) ∧
  (∀ (s : State) (k : FatalKind), s.fatal = some k → step s = .fault (.fatal k)) ∧
  (∀ s t : State, step s = .next t → t.halted = true → s.halted = true ∨ (fetchInstr s).mnemonic = .jam)

/-! ## Invariants of every step -/

/-- The PPU's position and sprite counts stay in range (R176, R220, R237, R250, R252). -/
def Obligations.PpuStaysInRange : Prop := ∀ s t : State, PpuInv s → step s = .next t → PpuInv t

/-- The APU's length counters stay within 254, its LFSR never becomes 0, its DMC bit counter stays within 1 to 8, a pending
sequencer reset within 1 to 4 cycles, and a DMC DMA is due only with an empty sample buffer and a byte remaining (R176, R260,
R266, R268, R276, R278, R279; that no write is left to commit is the model's own field, log 13, and that a disable withdraws a
standing request is its choice, log 12). -/
def Obligations.ApuStaysInRange : Prop := ∀ s t : State, ApuInv s → step s = .next t → ApuInv t

/-- Every memory keeps its canonical form and its size (R43). -/
def Obligations.MemoriesStayCanonical : Prop := ∀ s t : State, MemoryInv s → step s = .next t → MemoryInv t

/-- The three invariants hold at power-on, of any cartridge the loader accepts, and at the reset state; and what power-on
leaves: I set, the warm-up on, the 4-step sequencer with its IRQ enabled and count 0, LFSR 1, the DMC silent with 8 bits left,
MMC3 PRG RAM enabled, nothing pending (R213, R236, R283, R298). -/
def Obligations.InvariantsHoldAtPowerOn : Prop :=
  (PpuInv State.reset ∧ ApuInv State.reset ∧ MemoryInv State.reset) ∧
    ∀ (image : List Byte) (params : Params) (cart : Cartridge), load image = .ok cart →
      let s := State.powerOn params cart
      PpuInv s ∧ ApuInv s ∧ MemoryInv s ∧
        s.regs.p.i = true ∧ s.ppu.warmup = true ∧ s.ppu.scanline = 0 ∧ s.ppu.dot = 0 ∧ s.ppu.published = none ∧
        s.apu.fcMode = false ∧ s.apu.fcInhibit = false ∧ s.apu.fcCount = 0 ∧ s.apu.noise.lfsr = 1 ∧
        s.apu.dmc.bits = 8 ∧ s.apu.dmc.silence = true ∧ s.cart.mmc3.ramEnable = true ∧ s.cart.mmc3.irqEnable = false ∧
        NoDma s ∧ NoFault s ∧ s.nmiPending = false ∧ s.irqLine = false ∧ s.apu.samples = []

/-- No step changes ROM, the header, the mapper or the parameters; CHR ROM is never written; and time only moves on (R39,
R208, R211, R216). -/
def Obligations.RomNeverChanges : Prop :=
  ∀ s t : State, step s = .next t →
    t.cart.prgRom = s.cart.prgRom ∧ t.cart.header = s.cart.header ∧ t.cart.mapper = s.cart.mapper ∧
      t.params = s.params ∧ (s.cart.chrIsRam = false → t.cart.chr = s.cart.chr) ∧ s.cpuCycle < t.cpuCycle

/-! ## PPU -/

/-- PPUSCROLL and PPUADDR, first and second write, at every mirror, as fields of t; ignored during the warm-up (R196, R230,
R231, R236). -/
def Obligations.ScrollAndAddressWrites : Prop :=
  ∀ (a : Word) (v : Byte) (s : State), 0x2000 ≤ a.toNat → a.toNat < 0x4000 →
    let p := s.ppu
    let q := (writeAccess a v s).ppu
    (p.warmup = true → a.toNat % 8 = 5 ∨ a.toNat % 8 = 6 → q = { p with ioLatch := v }) ∧
    (p.warmup = false → a.toNat % 8 = 5 → p.w = false →
      q = { p with ioLatch := v, t := p.t.extractLsb' 5 10 ++ v.extractLsb' 3 5, fineX := v.extractLsb' 0 3, w := true }) ∧
    (p.warmup = false → a.toNat % 8 = 5 → p.w = true →
      q = { p with
        ioLatch := v
        t := v.extractLsb' 0 3 ++ p.t.extractLsb' 10 2 ++ v.extractLsb' 3 5 ++ p.t.extractLsb' 0 5
        w := false }) ∧
    (p.warmup = false → a.toNat % 8 = 6 → p.w = false →
      q = { p with ioLatch := v, t := 0#1 ++ v.extractLsb' 0 6 ++ p.t.extractLsb' 0 8, w := true }) ∧
    (p.warmup = false → a.toNat % 8 = 6 → p.w = true →
      q = { p with ioLatch := v, t := p.t.extractLsb' 8 7 ++ v, v := p.t.extractLsb' 8 7 ++ v, w := false })

/-- PPUCTRL and PPUMASK writes, ignored during the warm-up, OAMADDR writes, and a write of PPUSTATUS, which changes only the
latch (R224 to R226, R228, R236). -/
def Obligations.ControlAndMaskWrites : Prop :=
  ∀ (a : Word) (v : Byte) (s : State), 0x2000 ≤ a.toNat → a.toNat < 0x4000 →
    let p := s.ppu
    let q := (writeAccess a v s).ppu
    (p.warmup = true → a.toNat % 8 < 3 → q = { p with ioLatch := v }) ∧
    (p.warmup = false → a.toNat % 8 = 0 →
      q = { p with
        ioLatch := v, ctrl := v, t := p.t.extractLsb' 12 3 ++ v.extractLsb' 0 2 ++ p.t.extractLsb' 0 10 }) ∧
    (p.warmup = false → a.toNat % 8 = 1 → q = { p with ioLatch := v, mask := v }) ∧
    (a.toNat % 8 = 2 → q = { p with ioLatch := v }) ∧
    (a.toNat % 8 = 3 → q = { p with ioLatch := v, oamAddr := v })

/-- A PPUSTATUS read outside the vblank race window returns the three flags above the latch's low five bits and clears the
vblank flag and w; in the window bit 7 is any bit and the flag stays down for the frame (R227, R235, R240). The last clause is
the model's choice: it says so through the model's own field vblSuppress (log 11). -/
def Obligations.StatusRead : Prop :=
  ∀ (a : Word) (s : State), 0x2000 ≤ a.toNat → a.toNat < 0x4000 → a.toNat % 8 = 2 →
    let t := readAccess a s
    (∃ vblank : Bool,
      t.cpuBus = BitVec.ofBoolListBE [vblank, s.ppu.sprite0Hit, s.ppu.spriteOverflow] ++ s.ppu.ioLatch.extractLsb' 0 5 ∧
        (¬(s.ppu.scanline = 241 ∧ s.ppu.dot ≤ 3) → vblank = s.ppu.vblankFlag)) ∧
    t.ppu.vblankFlag = false ∧ t.ppu.w = false ∧ t.ppu.ioLatch = t.cpuBus ∧
    ((s.ppu.scanline = 241 ∧ s.ppu.dot ≤ 3) → t.ppu.vblSuppress = true)

/-- OAMDATA: outside rendering a write stores and steps OAMADDR, and a read returns the byte with an attribute byte's bits 4
to 2 clear; while rendering a write only steps OAMADDR by 4 (R229). -/
def Obligations.OamDataAccess : Prop :=
  ∀ (a : Word) (v : Byte) (s : State), 0x2000 ≤ a.toNat → a.toNat < 0x4000 → a.toNat % 8 = 4 →
    (s.ppu.rendering = false →
      (writeAccess a v s).ppu.oamAddr = s.ppu.oamAddr + 1 ∧
      (∀ k : Byte, (writeAccess a v s).ppu.oam[k.toFin] = if k = s.ppu.oamAddr then v else s.ppu.oam[k.toFin]) ∧
      (readAccess a s).cpuBus =
        (if s.ppu.oamAddr.toNat % 4 = 2 then s.ppu.oam[s.ppu.oamAddr.toFin] &&& 0xE3 else s.ppu.oam[s.ppu.oamAddr.toFin]) ∧
      (readAccess a s).ppu.oamAddr = s.ppu.oamAddr) ∧
    (s.ppu.rendering = true →
      (writeAccess a v s).ppu.oam = s.ppu.oam ∧ (writeAccess a v s).ppu.oamAddr = s.ppu.oamAddr + 4)

/-- PPUDATA outside rendering: a read below the palette returns the old buffer and refills it; a palette read returns the
palette directly and buffers the nametable byte under it; a write below the palette stores in nametable RAM or in CHR RAM, and a
palette write stores six bits, with $3F10, $3F14, $3F18 and $3F1C mirrored; every other cell of the palette, of CHR memory and
of both nametable RAMs, and OAM, stay as before; v steps by 1 or 32. While rendering, v makes both scroll increments and a write
is dropped (R222, R232 to R234). -/
def Obligations.PpuDataAccess : Prop :=
  ∀ (a : Word) (d : Byte) (s : State), 0x2000 ≤ a.toNat → a.toNat < 0x4000 → a.toNat % 8 = 7 →
    let v := s.ppu.v.toNat % 16384
    let stepped := s.ppu.v + (if s.ppu.ctrl.getLsbD 2 then 32 else 1)
    let cell (n : Nat) : Nat := if n % 32 ∈ [16, 20, 24, 28] then n % 16 else n % 32
    (s.ppu.rendering = false →
      (readAccess a s).ppu.v = stepped ∧ (writeAccess a d s).ppu.v = stepped ∧
      (v < 0x3F00 → (readAccess a s).cpuBus = s.ppu.readBuffer ∧
        (readAccess a s).ppu.readBuffer = ppuRead s (BitVec.ofNat 14 v)) ∧
      (v < 0x3F00 → 0x2000 ≤ v ∨ s.cart.chrIsRam = true →
        ppuRead (writeAccess a d s) (BitVec.ofNat 14 v) = d) ∧
      (0x3F00 ≤ v →
        (readAccess a s).ppu.readBuffer = ppuRead s (BitVec.ofNat 14 (v - 0x1000)) ∧
        (∀ k : Fin 32, k.val = cell v →
          (readAccess a s).cpuBus =
            s.ppu.ioLatch.extractLsb' 6 2 ++ (s.ppu.palette[k] &&& (if s.ppu.mask.getLsbD 0 then 0x30 else 0x3F))) ∧
        (∀ k : Fin 32, (writeAccess a d s).ppu.palette[k] =
          if k.val = cell v then d.extractLsb' 0 6 else s.ppu.palette[k])) ∧
      (let u := writeAccess a d s
       let x : PpuAddr := BitVec.ofNat 14 v
       (v < 0x3F00 → u.ppu.palette = s.ppu.palette) ∧ u.ppu.oam = s.ppu.oam ∧
         (∀ o, u.cart.chr.get? o =
           if v < 0x2000 ∧ s.cart.chrIsRam = true ∧ o = s.cart.chrOffset x then some d else s.cart.chr.get? o) ∧
         (∀ o, u.ciram.get? o =
           if 0x2000 ≤ v ∧ v < 0x3F00 ∧ s.cart.header.fourScreen = false ∧ o = s.cart.ntOffset x then some d
           else s.ciram.get? o) ∧
         (∀ o, u.cart.fourScreen.get? o =
           if 0x2000 ≤ v ∧ v < 0x3F00 ∧ s.cart.header.fourScreen = true ∧ o = s.cart.ntOffset x then some d
           else s.cart.fourScreen.get? o))) ∧
    (s.ppu.rendering = true →
      (readAccess a s).cpuBus = s.ppu.readBuffer ∧ (readAccess a s).ppu.v = yInc (coarseXInc s.ppu.v) ∧
      (writeAccess a d s).ppu =
        { s.ppu with ioLatch := d, v := yInc (coarseXInc s.ppu.v) } ∧ (writeAccess a d s).cart = s.cart ∧
      (writeAccess a d s).ciram = s.ciram)

/-- The coarse X and Y increments on the fields of v: fine Y, nametable, coarse Y, coarse X (R220, R246, R247). -/
def Obligations.ScrollIncrements : Prop :=
  ∀ (fineY : BitVec 3) (nt : BitVec 2) (coarseY coarseX : BitVec 5),
    coarseXInc (fineY ++ nt ++ coarseY ++ coarseX) =
      fineY ++ (if coarseX = 31 then nt ^^^ 1 else nt) ++ coarseY ++ (coarseX + 1) ∧
    yInc (fineY ++ nt ++ coarseY ++ coarseX) =
      (if fineY ≠ 7 then (fineY + 1) ++ nt ++ coarseY ++ coarseX
       else 0#3 ++ (if coarseY = 29 then nt ^^^ 2 else nt) ++ (if coarseY = 29 then 0 else coarseY + 1) ++ coarseX)

/-- One dot: the vblank flag is set at (241, 1) unless it was suppressed; at (261, 1) the three flags and the warm-up end and
the frame is published; the position moves through the 262 by 341 grid, (261, 340) being skipped on an odd frame with
rendering enabled (R237, R239, R241, R242, R257). That the field vblSuppress is what suppresses the flag is the model's choice
(log 11). -/
def Obligations.DotTiming : Prop :=
  ∀ s : State, PpuInv s →
    let p := s.ppu
    let q := (ppuDot s).ppu
    (p.scanline = 241 ∧ p.dot = 1 → q.vblankFlag = (p.vblankFlag || !p.vblSuppress)) ∧
    (p.scanline = 261 ∧ p.dot = 1 → q.vblankFlag = false ∧ q.sprite0Hit = false ∧ q.spriteOverflow = false ∧
      q.warmup = false ∧ q.published = some p.frame) ∧
    (¬(p.scanline = 241 ∧ p.dot = 1) → ¬(p.scanline = 261 ∧ p.dot = 1) →
      q.vblankFlag = p.vblankFlag ∧ q.published = p.published ∧ q.warmup = p.warmup) ∧
    (let skipped := p.scanline = 261 ∧ p.dot = 339 ∧ p.oddFrame = true ∧ (p.mask.getLsbD 3 || p.mask.getLsbD 4) = true
     let position := 341 * p.scanline + p.dot
     (¬skipped → 341 * q.scanline + q.dot = (position + 1) % 89342 ∧
       q.oddFrame = (if position = 89341 then !p.oddFrame else p.oddFrame)) ∧
     (skipped → q.scanline = 0 ∧ q.dot = 0 ∧ q.oddFrame = false))

/-- Sprite evaluation finds the first eight sprites in range, in OAM order, copies their bytes to secondary OAM, and marks
sprite 0; with fewer than eight it finds no overflow (R250). -/
def Obligations.SpriteEvaluationFindsFirstEight : Prop :=
  ∀ p : Ppu,
    let height := if p.ctrl.getLsbD 5 then 16 else 8
    let inRangeHere (n : Nat) : Bool :=
      decide ((p.oamByte (4 * n)).toNat ≤ p.scanline ∧ p.scanline < (p.oamByte (4 * n)).toNat + height)
    let found := ((List.range 64).filter inRangeHere).take 8
    let q := p.evaluate
    q.evalCount = found.length ∧ q.evalSpr0 = inRangeHere 0 ∧
      (∀ k n, found[k]? = some n → ∀ j, j < 4 → q.secByte k j = p.oamByte (4 * n + j)) ∧
      (found.length < 8 → q.evalOvfDot = none)

/-! ## APU -/

/-- A length index write: an enabled channel's counter takes the table's value, except that in a cycle with a half-frame
clock it does so only if it was 0; a disabled channel's counter is not loaded (R262, R265, R268). -/
def Obligations.LengthCounterLoad : Prop :=
  ∀ (a : Apu) (put : Bool) (v : Byte) (ch : Fin 4),
    let table : List Nat := [10, 254, 20, 2, 40, 4, 80, 6, 160, 8, 60, 10, 14, 12, 26, 14,
      12, 16, 24, 18, 48, 20, 96, 22, 192, 24, 72, 26, 16, 28, 32, 30]
    let register : BitVec 5 := [0x03, 0x07, 0x0B, 0x0F].getD ch.val 0
    let old := a.lengthOfChannel ch
    let halted := [a.p1.halt, a.p2.halt, a.tri.control, a.noise.halt].getD ch.val false
    let clocked := if 0 < old ∧ halted = false then old - 1 else old
    a.late = none →
    ((a.write put register v).sequencer).lengthOfChannel ch =
      if a.enabled ch then
        (if a.seqStep.half then (if old = 0 then table.getD (v.toNat / 8) 0 else clocked) else table.getD (v.toNat / 8) 0)
      else (if a.seqStep.half then clocked else old)

/-- $4015: a write sets the enables, clears the length of a channel it disables, stops or restarts the sample and clears the
DMC interrupt, ignoring bits 7 to 5; a read reports the flags, bit 5 from the bus, and clears the frame interrupt alone, but
one that the sequencer raises in the same cycle stands (R263, R264). -/
def Obligations.StatusRegister4015 : Prop :=
  (∀ (v : Byte) (s : State),
    let a := s.apu
    let b := (writeAccess 0x4015 v s).apu
    b.enP1 = v.getLsbD 0 ∧ b.enP2 = v.getLsbD 1 ∧ b.enTri = v.getLsbD 2 ∧ b.enNoise = v.getLsbD 3 ∧
      (∀ ch : Fin 4, b.lengthOfChannel ch = if v.getLsbD ch.val then a.lengthOfChannel ch else 0) ∧
      b.dmcIrq = false ∧ b.frameIrq = a.frameIrq ∧
      (b.dmc.remaining = if v.getLsbD 4 then (if a.dmc.remaining = 0 then a.dmc.startLen else a.dmc.remaining) else 0) ∧
      (b.dmc.address = if v.getLsbD 4 ∧ a.dmc.remaining = 0 then a.dmc.startAddr else a.dmc.address) ∧
      b = (writeAccess 0x4015 (v &&& 0x1F) s).apu) ∧
  (∀ s : State,
    (readAccess 0x4015 s).cpuBus = BitVec.ofBoolListBE
        [s.apu.dmcIrq, s.apu.frameIrq, s.cpuBus.getLsbD 5, decide (s.apu.dmc.remaining ≠ 0), decide (0 < s.apu.noise.length),
          decide (0 < s.apu.tri.length), decide (0 < s.apu.p2.length), decide (0 < s.apu.p1.length)] ∧
      (readAccess 0x4015 s).apu = { s.apu with frameIrq := false } ∧
      (cycle (readAccess 0x4015) s).apu.frameIrq = (s.apu.seqStep.irq && !s.apu.fcInhibit))

/-- The frame sequencer's schedule in both modes, and a $4017 reset, which takes its place 3 or 4 cycles after the write and
clocks both units in 5-step mode (R265, R266). Two points are the model's choice: a write in the very cycle in which an
earlier reset falls due replaces that reset (log 27), and the model's own field late holds the write's own cycle (log 13). -/
def Obligations.FrameSequencerSchedule : Prop :=
  ∀ a : Apu, a.late = none →
    let n := a.fcCount + 1
    let b := a.seqStep
    (a.fcResetIn = none ∨ (∃ k, a.fcResetIn = some k ∧ 1 < k) →
      (b.half = true ↔ n = 14913 ∨ n = (if a.fcMode then 37281 else 29829)) ∧
      (b.quarter = true ↔ n = 7457 ∨ n = 14913 ∨ n = 22371 ∨ n = (if a.fcMode then 37281 else 29829)) ∧
      (b.irq = true ↔ a.fcMode = false ∧ (n = 29828 ∨ n = 29829 ∨ n = 29830)) ∧
      b.count = (if n = (if a.fcMode then 37282 else 29830) then 0 else n) ∧
      b.resetIn = a.fcResetIn.map (· - 1)) ∧
    (a.fcResetIn = some 1 →
      b.count = 0 ∧ b.resetIn = none ∧ b.half = a.fcMode ∧ b.quarter = a.fcMode ∧ b.irq = false) ∧
    (∀ (put : Bool) (v : Byte),
      (a.write put 0x17 v).sequencer.fcResetIn = some (if put then 4 else 3) ∧
      (a.write put 0x17 v).fcMode = v.getLsbD 7 ∧ (a.write put 0x17 v).fcInhibit = v.getLsbD 6 ∧
      (v.getLsbD 6 = true → (a.write put 0x17 v).frameIrq = false))

/-- A sweep unit that mutes its channel never changes its period, and the channel outputs 0; one that changes the period sets
it to the target, at most $7FF; and a channel whose length is 0 outputs 0 (R270, R272, R277). -/
def Obligations.MutedChannelsAreSilent : Prop :=
  ∀ (ones : Bool) (p : Pulse),
    (p.muted ones = true → (p.clockHalf ones).timerPeriod = p.timerPeriod ∧ p.output ones = 0) ∧
    ((p.clockHalf ones).timerPeriod ≠ p.timerPeriod →
      (p.clockHalf ones).timerPeriod.toNat = p.target ones ∧ p.sweepEn = true ∧ p.sweepDiv = 0) ∧
    (p.length = 0 → p.output ones = 0) ∧ (∀ n : Noise, n.length = 0 → n.output = 0)

/-- Every sample lies in [-1, 1], in every state of the APU (R269, R272, R275, R277, R281). -/
def Obligations.SamplesLieInUnitRange : Prop := ∀ a : Apu, -1 ≤ a.sample ∧ a.sample ≤ 1

/-! ## Bus, DMA, cartridge -/

/-- An OAM DMA before a CPU read, with rendering off and no sample to fetch: 513 cycles, or 514 when the cycle after the halt
cycle is a put cycle, and the page's 256 bytes in OAM from OAMADDR on, wrapping (R203, R204, R229, R261). -/
def Obligations.OamDmaCopiesPage : Prop :=
  ∀ (s : State) (a : Word) (page : Byte) (d : Byte → Byte),
    s.oamDma = some page → s.dmcDma = false → s.apu.dmc.remaining = 0 → s.ppu.renderingEnabled = false →
    (∀ i : Byte, memByte s (w16 page i) = some (d i)) →
    let t := cpuRead a s
    t.oamDma = none ∧ t.regs = s.regs ∧ t.kept = s.kept ∧
      (∀ i : Byte, t.ppu.oam[(s.ppu.oamAddr + i).toFin] = d i) ∧
      t.cpuCycle = s.cpuCycle + (if (s.cpuCycle + 1) % 2 = s.params.apuPutParity.val then 514 else 513) + 1

/-- A DMC DMA outside an OAM DMA: 3 cycles, or 4 with the alignment cycle; the byte goes to the sample buffer and the address
and count move on; after the last byte the sample restarts if it loops, and else raises the DMC interrupt if that is enabled
(R203, R205, R279, R280). Disabling the DMC stops the fetching: the count is 0 and no request stands (R263, R278); that a request
which stood is withdrawn is the model's choice (log 12). -/
def Obligations.DmcDmaFetchesByte : Prop :=
  (∀ (s : State) (a : Word) (b : Byte),
    s.oamDma = none → s.dmcDma = true → s.apu.dmc.remaining ≠ 0 → memByte s s.apu.dmc.address = some b →
    let t := serviceDma a s
    let next := if s.apu.dmc.address = 0xFFFF then 0x8000 else s.apu.dmc.address + 1
    t.dmcDma = false ∧ t.regs = s.regs ∧ t.kept = s.kept ∧ t.apu.dmc.buffer = some b ∧
      t.cpuCycle = s.cpuCycle + (if s.cpuCycle % 2 = s.params.apuPutParity.val then 4 else 3) ∧
      (s.apu.dmc.remaining ≠ 1 → t.apu.dmc.address = next ∧ t.apu.dmc.remaining = s.apu.dmc.remaining - 1 ∧
        t.apu.dmcIrq = s.apu.dmcIrq) ∧
      (s.apu.dmc.remaining = 1 → s.apu.dmc.loop = true → t.apu.dmc.address = s.apu.dmc.startAddr ∧
        t.apu.dmc.remaining = s.apu.dmc.startLen ∧ t.apu.dmcIrq = s.apu.dmcIrq) ∧
      (s.apu.dmc.remaining = 1 → s.apu.dmc.loop = false → t.apu.dmc.address = next ∧ t.apu.dmc.remaining = 0 ∧
        t.apu.dmcIrq = (s.apu.dmcIrq || s.apu.dmc.irqEn))) ∧
  (∀ (s : State) (v : Byte), v.getLsbD 4 = false →
    (cpuWrite 0x4015 v s).dmcDma = false ∧ (cpuWrite 0x4015 v s).apu.dmc.remaining = 0)

/-- MMC3 PRG banking: writing bank number k to register 6 and reading $8000-$9FFF gives bank k's bytes, modulo the number of
banks; $E000-$FFFF is the last bank whatever the registers hold (R214, R215). -/
def Obligations.Mmc3BankRoundTrip : Prop :=
  ∀ (s : State) (k : Byte) (a : Word), s.cart.mapper = .mmc3 → 0 < s.cart.header.prgUnits →
    let banks := 2 * s.cart.header.prgUnits
    let t := writeAccess 0x8001 k (writeAccess 0x8000 6 s)
    (0x8000 ≤ a.toNat → a.toNat < 0xA000 →
      (readAccess a t).cpuBus = (s.cart.prgRom.get? ((k.toNat % 64) % banks * 8192 + (a.toNat - 0x8000))).getD 0) ∧
    (0xE000 ≤ a.toNat →
      (readAccess a s).cpuBus = (s.cart.prgRom.get? ((banks - 1) * 8192 + (a.toNat - 0xE000))).getD 0)

/-- The MMC3's scanline counter, after a reload with the IRQ enabled and latch N: the flag is raised at clock N + 1 and at no
clock before (R219). -/
def Obligations.Mmc3IrqAfterLatchPlusOneClocks : Prop :=
  ∀ (r : Mmc3) (n : Nat), r.irqReload = true → r.irqEnable = true → r.irqFlag = false →
    ((Mmc3.clockCounter^[n] r).irqFlag = true ↔ r.irqLatch.toNat + 1 ≤ n)

/-- After the strobe is set and cleared, the reads of $4016 give A, B, Select, Start, Up, Down, Left and Right of the first
port's buttons, then 1 for ever, and those of $4017 the second port's; bits 7 to 5 are the bus; neither shifts the other. While
the strobe is on, a read of either port gives its A button and reloads both (R200, R201, R202). -/
def Obligations.ControllerReadsAreSerial : Prop :=
  (∀ (s : State) (n : Nat),
    let u := writeAccess 0x4016 0 (writeAccess 0x4016 1 s)
    let t := (readAccess 0x4016)^[n + 1] u
    let t' := (readAccess 0x4017)^[n + 1] u
    (t.cpuBus.getLsbD 0 = (if n < 8 then s.port0.buttons.getLsbD n else true) ∧
      t.cpuBus.extractLsb' 5 3 = 0#3 ∧ t.port1 = { s.port1 with shift := s.port1.buttons }) ∧
    (t'.cpuBus.getLsbD 0 = (if n < 8 then s.port1.buttons.getLsbD n else true) ∧
      t'.cpuBus.extractLsb' 5 3 = 0#3 ∧ t'.port0 = { s.port0 with shift := s.port0.buttons })) ∧
  (∀ s : State, s.strobe = true →
    (readAccess 0x4016 s).cpuBus = s.cpuBus &&& 0xE0 ||| (s.port0.buttons &&& 1) ∧
    (readAccess 0x4017 s).cpuBus = s.cpuBus &&& 0xE0 ||| (s.port1.buttons &&& 1) ∧
    ∀ a ∈ [0x4016#16, 0x4017#16],
      (readAccess a s).port0 = { s.port0 with shift := s.port0.buttons } ∧
      (readAccess a s).port1 = { s.port1 with shift := s.port1.buttons })

/-- A read that no device drives leaves the last byte on the bus and changes nothing: $4000-$4014, $4018-$5FFF, and
$6000-$7FFF without readable PRG RAM (R196, R198, R212, R217). -/
def Obligations.OpenBusReads : Prop :=
  ∀ (a : Word) (s : State),
    ((0x4000 ≤ a.toNat ∧ a.toNat ≤ 0x4014) ∨ (0x4018 ≤ a.toNat ∧ a.toNat < 0x6000) ∨
      (0x6000 ≤ a.toNat ∧ a.toNat < 0x8000 ∧ s.cart.ramReadable s.params = false)) →
    readAccess a s = s

/-- The loader: an accepted image has a header that a cartridge can have and one of the two mappers it names; an image whose
sizes are right but whose mapper is neither 0 nor 4 is rejected by the name UnsupportedMapper (R206, R207, R209). -/
def Obligations.LoaderChecks : Prop :=
  (∀ (image : List Byte) (cart : Cartridge), load image = .ok cart →
    cart.header.wellFormed = true ∧ cart.header = parseHeader image ∧
      cart.mapper = (if cart.header.mapper = 4 then .mmc3 else .nrom) ∧ 16 ≤ image.length) ∧
  (∀ image : List Byte, 16 ≤ image.length → image.take 4 = [0x4E, 0x45, 0x53, 0x1A] → 0 < (parseHeader image).prgUnits →
    16 + (if (parseHeader image).trainer then 512 else 0) + 16384 * (parseHeader image).prgUnits
      + 8192 * (parseHeader image).chrUnits ≤ image.length →
    (parseHeader image).mapper ≠ 0 → (parseHeader image).mapper ≠ 4 →
    load image = .error (.unsupportedMapper (parseHeader image).mapper))
end

