-- ==== Sys2Proof/Laws/Memory.lean ====
section
/-!
SUPPORT. The laws of one memory: a read after a write, and that every operation keeps the canonical form.
-/

namespace Sys2Proof.Machine

/-- A read after a write: the byte written at its offset, the old one elsewhere. -/
theorem Memory.get?_set (m : Memory) (a b : Nat) (v : Byte) :
    Memory.get? (Memory.set m a v) b = if a = b then some v else Memory.get? m b := by
  induction m with
  | nil => rfl
  | cons c m ih =>
    obtain ⟨k, w⟩ := c
    simp only [Memory.set]
    split
    · rfl
    · rename_i h1
      split
      · rename_i h2
        simp only [Memory.get?]
        subst h2
        split <;> rfl
      · rename_i h2
        simp only [Memory.get?, ih]
        split
        · rename_i h3
          rw [if_neg (by omega)]
        · rfl

/-- Every offset of a memory after a write is the written one or was there before. -/
theorem Memory.mem_set {m : Memory} {a : Nat} {v : Byte} {c : Host.Cell} (h : c ∈ Memory.set m a v) :
    c.1 = a ∨ c ∈ m := by
  induction m with
  | nil =>
    simp only [Memory.set, List.mem_singleton] at h
    exact .inl (by rw [h])
  | cons d m ih =>
    obtain ⟨k, w⟩ := d
    simp only [Memory.set] at h
    split at h
    · rcases List.mem_cons.1 h with rfl | h
      · exact .inl rfl
      · exact .inr h
    · split at h
      · rcases List.mem_cons.1 h with rfl | h
        · exact .inl rfl
        · exact .inr (List.mem_cons_of_mem _ h)
      · rcases List.mem_cons.1 h with rfl | h
        · exact .inr (List.mem_cons_self ..)
        · rcases ih h with h | h
          · exact .inl h
          · exact .inr (List.mem_cons_of_mem _ h)

/-- A write keeps the canonical form. -/
theorem Memory.wf_set {m : Memory} (a : Nat) (v : Byte) (h : Memory.wf m) : Memory.wf (Memory.set m a v) := by
  induction m with
  | nil => exact List.pairwise_singleton _ _
  | cons d m ih =>
    obtain ⟨k, w⟩ := d
    have hk : ∀ c ∈ m, k < c.1 := fun c hc => List.rel_of_pairwise_cons h hc
    have hm := List.Pairwise.of_cons h
    simp only [Memory.set]
    split
    · rename_i h1
      refine List.Pairwise.cons ?_ h
      intro c hc
      rcases List.mem_cons.1 hc with rfl | hc
      · exact h1
      · exact Nat.lt_trans h1 (hk c hc)
    · rename_i h1
      split
      · rename_i h2
        subst h2
        exact List.Pairwise.cons hk hm
      · refine List.Pairwise.cons ?_ (ih hm)
        intro c hc
        rcases Memory.mem_set hc with h3 | h3
        · show k < c.1
          omega
        · exact hk c h3

/-- A write below the size keeps every offset below it. -/
theorem Memory.below_set {m : Memory} {n a : Nat} (v : Byte) (ha : a < n) (h : Memory.below n m) :
    Memory.below n (Memory.set m a v) := by
  intro c hc
  rcases Memory.mem_set hc with h1 | h1
  · omega
  · exact h c h1

theorem Memory.mem_erase {m : Memory} {a : Nat} {c : Host.Cell} (h : c ∈ Memory.erase m a) : c ∈ m := by
  induction m with
  | nil => exact h
  | cons d m ih =>
    obtain ⟨k, w⟩ := d
    simp only [Memory.erase] at h
    split at h
    · exact List.mem_cons_of_mem _ h
    · rcases List.mem_cons.1 h with rfl | h
      · exact List.mem_cons_self ..
      · exact List.mem_cons_of_mem _ (ih h)

/-- Dropping a cell keeps the canonical form. -/
theorem Memory.wf_erase {m : Memory} (a : Nat) (h : Memory.wf m) : Memory.wf (Memory.erase m a) := by
  induction m with
  | nil => exact h
  | cons d m ih =>
    obtain ⟨k, w⟩ := d
    have hm := List.Pairwise.of_cons h
    simp only [Memory.erase]
    split
    · exact hm
    · exact List.Pairwise.cons (fun c hc => List.rel_of_pairwise_cons h (Memory.mem_erase hc)) (ih hm)

theorem Memory.wf_setRom {m : Memory} (a : Nat) (v : Byte) (h : Memory.wf m) : Memory.wf (Memory.setRom m a v) := by
  unfold Memory.setRom
  split
  · exact Memory.wf_erase a h
  · exact Memory.wf_set a v h

theorem Memory.mem_ofBytes {vs : List Byte} {a : Nat} {c : Host.Cell} (h : c ∈ Memory.ofBytes a vs) :
    a ≤ c.1 ∧ c.1 < a + vs.length := by
  induction vs generalizing a with
  | nil => simp only [Memory.ofBytes, List.not_mem_nil] at h
  | cons v vs ih =>
    simp only [Memory.ofBytes] at h
    rcases List.mem_cons.1 h with rfl | h
    · simp only [List.length_cons]
      omega
    · have := ih h
      simp only [List.length_cons]
      omega

/-- A laid out region is in canonical form. -/
theorem Memory.wf_ofBytes (vs : List Byte) (a : Nat) : Memory.wf (Memory.ofBytes a vs) := by
  induction vs generalizing a with
  | nil => exact List.Pairwise.nil
  | cons v vs ih =>
    refine List.Pairwise.cons ?_ (ih _)
    intro c hc
    have := Memory.mem_ofBytes hc
    show a < c.1
    omega

theorem Memory.mem_ofRom {vs : List Byte} {a : Nat} {c : Host.Cell} (h : c ∈ Memory.ofRom a vs) :
    a ≤ c.1 ∧ c.1 < a + vs.length ∧ c.2 ≠ 0 := by
  induction vs generalizing a with
  | nil => simp only [Memory.ofRom, List.not_mem_nil] at h
  | cons v vs ih =>
    simp only [Memory.ofRom] at h
    split at h
    · have := ih h
      simp only [List.length_cons]
      exact ⟨by omega, by omega, this.2.2⟩
    · rename_i hv
      rcases List.mem_cons.1 h with rfl | h
      · simp only [List.length_cons]
        exact ⟨Nat.le_refl _, by omega, hv⟩
      · have := ih h
        simp only [List.length_cons]
        exact ⟨by omega, by omega, this.2.2⟩

/-- A laid out ROM is in canonical form, with no $00 listed. -/
theorem Memory.wf_ofRom (vs : List Byte) (a : Nat) : Memory.wf (Memory.ofRom a vs) := by
  induction vs generalizing a with
  | nil => exact List.Pairwise.nil
  | cons v vs ih =>
    simp only [Memory.ofRom]
    split
    · exact ih _
    · refine List.Pairwise.cons ?_ (ih _)
      intro c hc
      have := Memory.mem_ofRom hc
      show a < c.1
      omega

/-- Every memory of the reset state is in canonical form. -/
theorem State.reset_memories_wf :
    State.reset.wram.wf ∧ State.reset.ciram.wf ∧ State.reset.cart.prgRom.wf ∧ State.reset.cart.chr.wf ∧
      State.reset.cart.prgRam.wf ∧ State.reset.cart.fourScreen.wf :=
  ⟨.nil, .nil, .nil, .nil, .nil, .nil⟩

end Sys2Proof.Machine
end

