-- ==== Sys2Proof/Laws/Kept.lean ====
section
/-!
SUPPORT. What a PPU dot, the end of a cycle, a bus read, a DMA and a CPU read leave alone: the registers and `State.kept`.
-/

namespace Sys2Proof.Machine

/-- Registers and kept state agree. -/
def SameKept (s t : State) : Prop := t.regs = s.regs ∧ t.kept = s.kept

theorem SameKept.rfl {s : State} : SameKept s s := ⟨Eq.refl _, Eq.refl _⟩

theorem SameKept.trans {s t u : State} (h : SameKept s t) (k : SameKept t u) : SameKept s u :=
  ⟨k.1.trans h.1, k.2.trans h.2⟩

/-- Changing the PPU but not its settings. -/
theorem sameKept_ppu (s : State) (q : Ppu) (h : q.settings = s.ppu.settings) : SameKept s { s with ppu := q } :=
  ⟨Eq.refl _, by simp only [State.kept, h]⟩

/-- Changing the APU but not its settings. -/
theorem sameKept_apu (s : State) (a : Apu) (h : a.settings = s.apu.settings) : SameKept s { s with apu := a } :=
  ⟨Eq.refl _, by simp only [State.kept, h]⟩

/-! ## One dot -/

theorem fetch_same (a : PpuAddr) (k : Byte → Ppu → Ppu) (s : State) (h : ∀ b q, (k b q).settings = q.settings) :
    SameKept s (fetch a k s) := sameKept_ppu s (k (fetchByte a s) { s.ppu with abus := a }) (h _ _)

theorem bgFetch_same (s : State) : SameKept s (bgFetch s) := by
  unfold bgFetch
  dsimp only
  split
  · split
    all_goals exact fetch_same _ _ _ (fun _ _ => rfl)
  · split
    · exact fetch_same _ _ _ (fun _ _ => rfl)
    · exact SameKept.rfl

theorem shiftRegs_settings (p : Ppu) : p.shiftRegs.settings = p.settings := by
  unfold Ppu.shiftRegs
  dsimp only
  split
  · split <;> rfl
  · rfl

theorem drawnEvaluation_same (s : State) : SameKept s (drawnEvaluation s) := ⟨rfl, rfl⟩

theorem spriteEvalDot_same (s : State) : SameKept s (spriteEvalDot s) := by
  have hs : ∀ t : State, SameKept s t → SameKept s
      (if t.ppu.evalOvfDot = some s.ppu.dot then { t with ppu := { t.ppu with spriteOverflow := true } } else t) := by
    intro t ht
    split
    · exact ht.trans (sameKept_ppu _ _ rfl)
    · exact ht
  unfold spriteEvalDot
  dsimp only
  split
  · apply hs
    split
    · exact sameKept_ppu _ _ rfl
    · split
      · split
        · exact sameKept_ppu _ _ rfl
        · exact drawnEvaluation_same s
      · exact SameKept.rfl
  · exact SameKept.rfl

theorem loadLow_settings (p : Ppu) (i : Nat) (b : Byte) : (p.loadLow i b).settings = p.settings := rfl

theorem loadHigh_settings (p : Ppu) (i : Nat) (b : Byte) : (p.loadHigh i b).settings = p.settings := rfl

theorem oamAddr_settings (p : Ppu) (v : Byte) : ({ p with oamAddr := v } : Ppu).settings = p.settings := rfl

theorem handSprites_settings (p : Ppu) : p.handSprites.settings = p.settings := by
  unfold Ppu.handSprites
  split
  · split <;> rfl
  · rfl

theorem slotFetch_same (i k : Nat) (s : State) : SameKept s (slotFetch i k s) := by
  unfold slotFetch
  split
  · exact fetch_same _ _ _ (fun _ _ => rfl)
  · split
    · exact fetch_same _ _ _ (fun _ _ => loadLow_settings _ _ _)
    · split
      · exact fetch_same _ _ _ (fun _ _ => loadHigh_settings _ _ _)
      · exact SameKept.rfl

theorem spriteFetchDot_same (s : State) : SameKept s (spriteFetchDot s) := by
  unfold spriteFetchDot
  dsimp only
  split
  · exact (slotFetch_same _ _ _).trans (sameKept_ppu _ _ (by rw [handSprites_settings, oamAddr_settings]))
  · exact SameKept.rfl

theorem scroll_settings (p : Ppu) : p.scroll.settings = p.settings := by
  unfold Ppu.scroll
  rfl

theorem output_settings (p : Ppu) : p.output.settings = p.settings := by
  unfold Ppu.output
  split <;> rfl

theorem frameEvents_settings (p : Ppu) : p.frameEvents.settings = p.settings := by
  unfold Ppu.frameEvents
  split
  · rfl
  · split <;> rfl

theorem advance_settings (p : Ppu) : p.advance.settings = p.settings := by
  unfold Ppu.advance
  split
  · rfl
  · split
    · split <;> rfl
    · rfl

theorem renderDot_same (s : State) : SameKept s (renderDot s) := by
  unfold renderDot
  split
  · exact ((((bgFetch_same s).trans (sameKept_ppu _ _ (shiftRegs_settings _))).trans (spriteEvalDot_same _)).trans
      (spriteFetchDot_same _)).trans (sameKept_ppu _ _ (scroll_settings _))
  · exact sameKept_ppu _ _ rfl

theorem clockCounter_settings (r : Mmc3) : r.clockCounter.settings = r.settings := rfl

theorem observe_settings (f c : Nat) (x : Bool) (r : Mmc3) : (r.observe f c x).settings = r.settings := by
  unfold Mmc3.observe
  dsimp only
  split <;> split <;> rfl

theorem ppuObserve_same (s : State) : SameKept s (ppuObserve s) := by
  unfold ppuObserve
  split
  · exact SameKept.rfl
  · exact ⟨rfl, by simp only [State.kept, observe_settings]⟩

theorem ppuDot_same (s : State) : SameKept s (ppuDot s) :=
  (((sameKept_ppu s _ (frameEvents_settings _)).trans (renderDot_same _)).trans
    (sameKept_ppu _ _ ((advance_settings _).trans (output_settings _)))).trans (ppuObserve_same _)

theorem ppuDots_same (n : Nat) (s : State) : SameKept s (ppuDots n s) := by
  induction n generalizing s with
  | zero => exact SameKept.rfl
  | succ n ih => exact (ppuDot_same s).trans (ih _)

/-! ## The end of a cycle -/

theorem setLength_settings (ch : Fin 4) (n : Nat) (a : Apu) : (a.setLength ch n).settings = a.settings := by
  unfold Apu.setLength
  split
  · rfl
  · split
    · rfl
    · split <;> rfl

theorem setHalt_settings (ch : Fin 4) (b : Bool) (a : Apu) : (a.setHalt ch b).settings = a.settings := by
  unfold Apu.setHalt
  split
  · rfl
  · split
    · rfl
    · split <;> rfl

theorem commit_settings (w : Option LateWrite) (a : Apu) : (a.commit w).settings = a.settings := by
  unfold Apu.commit
  split
  · exact setLength_settings _ _ _
  · exact setHalt_settings _ _ _
  · rfl
  · rfl

theorem runSeq_settings (e : SeqStep) (a : Apu) : (a.runSeq e).settings = a.settings := by
  unfold Apu.runSeq
  dsimp only
  cases e.quarter <;> cases e.half <;> rfl

theorem sequencer_settings (a : Apu) : a.sequencer.settings = a.settings := by
  unfold Apu.sequencer
  dsimp only
  split
  · rw [commit_settings, runSeq_settings]; rfl
  · rw [runSeq_settings, commit_settings]; rfl

theorem pulse_clockTimer_settings (p : Pulse) : p.clockTimer.settings = p.settings := by
  unfold Pulse.clockTimer
  split <;> rfl

theorem outputStep_settings (d : Dmc) : d.outputStep.irqEn = d.irqEn ∧ d.outputStep.loop = d.loop ∧
    d.outputStep.rate = d.rate ∧ d.outputStep.startAddr = d.startAddr ∧ d.outputStep.startLen = d.startLen := by
  unfold Dmc.outputStep
  dsimp only
  split
  · split <;> exact ⟨rfl, rfl, rfl, rfl, rfl⟩
  · exact ⟨rfl, rfl, rfl, rfl, rfl⟩

theorem dmc_clockTimer_settings (d : Dmc) : d.clockTimer.irqEn = d.irqEn ∧ d.clockTimer.loop = d.loop ∧
    d.clockTimer.rate = d.rate ∧ d.clockTimer.startAddr = d.startAddr ∧ d.clockTimer.startLen = d.startLen := by
  unfold Dmc.clockTimer
  split
  · exact outputStep_settings d
  · exact ⟨rfl, rfl, rfl, rfl, rfl⟩

theorem noise_clockTimer_settings (n : Noise) : n.clockTimer.constVol = n.constVol ∧ n.clockTimer.vol = n.vol ∧
    n.clockTimer.mode = n.mode ∧ n.clockTimer.period = n.period := by
  unfold Noise.clockTimer
  split <;> exact ⟨rfl, rfl, rfl, rfl⟩

theorem tri_clockTimer_settings (t : Triangle) : t.clockTimer.linValue = t.linValue ∧
    t.clockTimer.timerPeriod = t.timerPeriod := by
  unfold Triangle.clockTimer
  split <;> exact ⟨rfl, rfl⟩

theorem timers_settings (put : Bool) (a : Apu) : (a.timers put).settings = a.settings := by
  obtain ⟨d1, d2, d3, d4, d5⟩ := dmc_clockTimer_settings a.dmc
  obtain ⟨n1, n2, n3, n4⟩ := noise_clockTimer_settings a.noise
  obtain ⟨t1, t2⟩ := tri_clockTimer_settings a.tri
  unfold Apu.timers
  dsimp only
  split
  · simp only [Apu.settings, pulse_clockTimer_settings, d1, d2, d3, d4, d5, n1, n2, n3, n4, t1, t2]
  · simp only [Apu.settings, t1, t2]

theorem dmcReader_same (s : State) : SameKept s (dmcReader s) := by
  unfold dmcReader
  split
  · exact ⟨rfl, rfl⟩
  · exact SameKept.rfl

theorem sampleCheck_same (s : State) : SameKept s (sampleCheck s) := by
  unfold sampleCheck
  split
  · dsimp only
    split <;> exact ⟨rfl, rfl⟩
  · exact SameKept.rfl

theorem apuCycle_same (s : State) : SameKept s (apuCycle s) :=
  ((sameKept_apu s _ ((timers_settings _ _).trans (sequencer_settings _))).trans (dmcReader_same _)).trans
    (sampleCheck_same _)

theorem sampleInterrupts_same (s : State) : SameKept s (sampleInterrupts s) := ⟨rfl, rfl⟩

theorem cycleEnd_same (s : State) : SameKept s (cycleEnd s) :=
  (((ppuDots_same _ s).trans (apuCycle_same _)).trans (sampleInterrupts_same _)).trans ⟨rfl, rfl⟩

/-! ## Bus reads -/

theorem drive_same (v : Byte) (s : State) : SameKept s (drive v s) := ⟨rfl, rfl⟩

theorem ppuDrive_same (v : Byte) (s : State) : SameKept s (ppuDrive v s) := ⟨rfl, rfl⟩

theorem raceNmi_same (b : Bool) (s : State) : SameKept s (raceNmi b s) := by
  unfold raceNmi
  dsimp only
  split <;> exact ⟨rfl, rfl⟩

theorem readStatus_same (s : State) : SameKept s (readStatus s) := by
  unfold readStatus
  split
  · dsimp only
    split
    · exact SameKept.trans (t := ppuDrive (s.ppu.statusByte (Config.raceBit s.draws))
        { s with draws := s.draws + 1, ppu := { s.ppu with vblankFlag := false, w := false, vblSuppress := true } })
        ⟨rfl, rfl⟩ (raceNmi_same _ _)
    · exact ⟨rfl, rfl⟩
  · exact ⟨rfl, rfl⟩

theorem readOamData_same (s : State) : SameKept s (readOamData s) := by
  unfold readOamData
  split <;> exact ⟨rfl, rfl⟩

theorem readData_same (s : State) : SameKept s (readData s) := by
  unfold readData
  dsimp only
  split
  · exact ⟨rfl, rfl⟩
  · split <;> exact ⟨rfl, rfl⟩

theorem ppuRegRead_same (r : BitVec 3) (s : State) : SameKept s (ppuRegRead r s) := by
  unfold ppuRegRead
  split
  · exact readStatus_same s
  · split
    · exact readOamData_same s
    · split
      · exact readData_same s
      · exact ppuDrive_same _ s

theorem reloadPorts_same (s : State) : SameKept s (reloadPorts s) := ⟨rfl, rfl⟩

theorem readPort0_same (s : State) : SameKept s (readPort0 s) := by
  unfold readPort0
  dsimp only
  split <;> exact ⟨rfl, rfl⟩

theorem readPort1_same (s : State) : SameKept s (readPort1 s) := by
  unfold readPort1
  dsimp only
  split <;> exact ⟨rfl, rfl⟩

theorem readAccess_same (a : Word) (s : State) : SameKept s (readAccess a s) := by
  unfold readAccess
  split
  · exact drive_same _ s
  split
  · exact ppuRegRead_same _ s
  split
  · exact ⟨rfl, rfl⟩
  split
  · exact readPort0_same s
  split
  · exact readPort1_same s
  split
  · exact SameKept.rfl
  · exact drive_same _ s

/-- A cycle whose access leaves the kept state alone leaves it alone. -/
theorem cycle_same (f : State → State) (h : ∀ s, SameKept s (f s)) (s : State) : SameKept s (cycle f s) :=
  ((ppuDots_same _ s).trans (h _)).trans (cycleEnd_same _)

/-! ## DMA and CPU reads -/

theorem takeSample_settings (b : Byte) (r : BitVec 12) (a : Apu) : (a.takeSample b r).settings = a.settings := by
  unfold Apu.takeSample
  dsimp only
  split
  · split <;> rfl
  · rfl

theorem dmcDone_same (b : Byte) (s : State) : SameKept s (dmcDone b s) := by
  unfold dmcDone
  split
  · exact ⟨rfl, rfl⟩
  · exact ⟨rfl, by simp only [State.kept, takeSample_settings]⟩

theorem dmcAccess_same (s : State) : SameKept s (dmcAccess s) :=
  (readAccess_same _ s).trans (dmcDone_same _ _)

theorem runDmc_same (a : Word) (s : State) : SameKept s (runDmc a s) := by
  have h := (cycle_same _ (readAccess_same a) s).trans (cycle_same _ (readAccess_same a) _)
  unfold runDmc
  dsimp only
  split
  · exact (h.trans (cycle_same _ (readAccess_same a) _)).trans (cycle_same _ dmcAccess_same _)
  · exact h.trans (cycle_same _ dmcAccess_same _)

theorem writeOamData_settings (v : Byte) (p : Ppu) : (p.writeOamData v).settings = p.settings := by
  unfold Ppu.writeOamData
  split <;> rfl

theorem writeOam_same (v : Byte) (s : State) : SameKept s (writeAccess 0x2004 v s) :=
  sameKept_ppu (drive v s) _ (writeOamData_settings v { s.ppu with ioLatch := v })

theorem dmcSlot_same (a : Word) (s : State) : SameKept s (dmcSlot a s) := by
  unfold dmcSlot
  split
  · exact (cycle_same _ dmcAccess_same s).trans (cycle_same _ (readAccess_same a) _)
  · exact SameKept.rfl

theorem oamByte_same (a src : Word) (s : State) : SameKept s (oamByte a src s) :=
  (((dmcSlot_same a s).trans (dmcSlot_same a _)).trans (cycle_same _ (readAccess_same src) _)).trans
    (cycle_same _ (writeOam_same _) _)

theorem oamBytes_same (a : Word) (page : Byte) (n i : Nat) (s : State) : SameKept s (oamBytes a page n i s) := by
  induction n generalizing i s with
  | zero => exact SameKept.rfl
  | succ n ih => exact (oamByte_same _ _ s).trans (ih _ _)

theorem runOam_same (a : Word) (page : Byte) (s : State) : SameKept s (runOam a page s) := by
  have h : SameKept s (cycle (readAccess a) { s with oamDma := none }) :=
    SameKept.trans (t := { s with oamDma := none }) ⟨rfl, rfl⟩ (cycle_same _ (readAccess_same a) _)
  unfold runOam
  dsimp only
  split
  · exact (h.trans (cycle_same _ (readAccess_same a) _)).trans (oamBytes_same _ _ _ _ _)
  · exact h.trans (oamBytes_same _ _ _ _ _)

theorem serviceOam_same (a : Word) (s : State) : SameKept s (serviceOam a s) := by
  unfold serviceOam
  cases s.oamDma with
  | none => exact SameKept.rfl
  | some page => exact runOam_same a page s

theorem serviceDmc_same (a : Word) (s : State) : SameKept s (serviceDmc a s) := by
  unfold serviceDmc
  split
  · exact runDmc_same a s
  · exact SameKept.rfl

theorem serviceDma_same (a : Word) (s : State) : SameKept s (serviceDma a s) :=
  (serviceOam_same a s).trans (serviceDmc_same a _)

/-- A CPU read changes no register and nothing of the kept state. -/
theorem cpuRead_same (a : Word) (s : State) : SameKept s (cpuRead a s) :=
  (serviceDma_same a s).trans (cycle_same _ (readAccess_same a) _)

end Sys2Proof.Machine
end

