-- ==== Sys2Proof/Laws/Reads.lean ====
section
/-!
SUPPORT. What a CPU read answers: a plain memory address gives the byte the memory holds, whatever DMA came first. And what
equal kept states agree in.
-/

namespace Sys2Proof.Machine

/-! ## What equal kept states agree in -/

section Agree

variable {s t : State} (h : t.kept = s.kept)
include h

theorem kept_params : t.params = s.params := by
  have e := congrArg (fun u : State => u.params) h
  exact e
theorem kept_halted : t.halted = s.halted := by
  have e := congrArg (fun u : State => u.halted) h
  exact e
theorem kept_resetPending : t.resetPending = s.resetPending := by
  have e := congrArg (fun u : State => u.resetPending) h
  exact e
theorem kept_fatal : t.fatal = s.fatal := by
  have e := congrArg (fun u : State => u.fatal) h
  exact e
theorem kept_wram : t.wram = s.wram := by
  have e := congrArg (fun u : State => u.wram) h
  exact e
theorem kept_ciram : t.ciram = s.ciram := by
  have e := congrArg (fun u : State => u.ciram) h
  exact e
theorem kept_strobe : t.strobe = s.strobe := by
  have e := congrArg (fun u : State => u.strobe) h
  exact e
theorem kept_prgRom : t.cart.prgRom = s.cart.prgRom := by
  have e := congrArg (fun u : State => u.cart.prgRom) h
  exact e
theorem kept_prgRam : t.cart.prgRam = s.cart.prgRam := by
  have e := congrArg (fun u : State => u.cart.prgRam) h
  exact e
theorem kept_chr : t.cart.chr = s.cart.chr := by
  have e := congrArg (fun u : State => u.cart.chr) h
  exact e
theorem kept_fourScreen : t.cart.fourScreen = s.cart.fourScreen := by
  have e := congrArg (fun u : State => u.cart.fourScreen) h
  exact e
theorem kept_header : t.cart.header = s.cart.header := by
  have e := congrArg (fun u : State => u.cart.header) h
  exact e
theorem kept_mapper : t.cart.mapper = s.cart.mapper := by
  have e := congrArg (fun u : State => u.cart.mapper) h
  exact e
theorem kept_bankSelect : t.cart.mmc3.bankSelect = s.cart.mmc3.bankSelect := by
  have e := congrArg (fun u : State => u.cart.mmc3.bankSelect) h
  exact e
theorem kept_bankReg : t.cart.mmc3.bankReg = s.cart.mmc3.bankReg := by
  have e := congrArg (fun u : State => u.cart.mmc3.bankReg) h
  exact e
theorem kept_ramEnable : t.cart.mmc3.ramEnable = s.cart.mmc3.ramEnable := by
  have e := congrArg (fun u : State => u.cart.mmc3.ramEnable) h
  exact e
theorem kept_ramProtect : t.cart.mmc3.ramProtect = s.cart.mmc3.ramProtect := by
  have e := congrArg (fun u : State => u.cart.mmc3.ramProtect) h
  exact e
theorem kept_buttons0 : t.port0.buttons = s.port0.buttons := by
  have e := congrArg (fun u : State => u.port0.buttons) h
  exact e
theorem kept_buttons1 : t.port1.buttons = s.port1.buttons := by
  have e := congrArg (fun u : State => u.port1.buttons) h
  exact e
theorem kept_mmc3 : t.cart.mmc3.settings = s.cart.mmc3.settings := by
  have e := congrArg (fun u : State => u.cart.mmc3) h
  exact e
theorem kept_ppu : t.ppu.settings = s.ppu.settings := by
  have e := congrArg (fun u : State => u.ppu) h
  exact e
theorem kept_apu : t.apu.settings = s.apu.settings := by
  have e := congrArg (fun u : State => u.apu) h
  exact e

theorem kept_wramByte (a : Word) : wramByte t a = wramByte s a := by rw [wramByte, wramByte, kept_wram h]

theorem kept_prgRamByte (a : Word) : t.cart.prgRamByte a = s.cart.prgRamByte a := by
  rw [Cartridge.prgRamByte, Cartridge.prgRamByte, kept_prgRam h]

theorem kept_prgOffset (a : Word) : t.cart.prgOffset a = s.cart.prgOffset a := by
  simp only [Cartridge.prgOffset, Cartridge.prgSize, Cartridge.mmc3PrgBank, kept_mapper h, kept_header h,
    kept_bankSelect h, kept_bankReg h]

theorem kept_prgRomByte (a : Word) : t.cart.prgRomByte a = s.cart.prgRomByte a := by
  rw [Cartridge.prgRomByte, Cartridge.prgRomByte, kept_prgRom h, kept_prgOffset h]

theorem kept_ramWritable : t.cart.ramWritable t.params = s.cart.ramWritable s.params := by
  simp only [Cartridge.ramWritable, kept_mapper h, kept_header h, kept_params h, kept_ramEnable h, kept_ramProtect h]

theorem kept_ramReadable : t.cart.ramReadable t.params = s.cart.ramReadable s.params := by
  simp only [Cartridge.ramReadable, kept_mapper h, kept_header h, kept_params h, kept_ramEnable h]

theorem kept_cpuRead (a : Word) : t.cart.cpuRead t.params a = s.cart.cpuRead s.params a := by
  rw [Cartridge.cpuRead, Cartridge.cpuRead, kept_ramReadable h, kept_prgRamByte h, kept_prgRomByte h]

theorem kept_memByte (a : Word) : memByte t a = memByte s a := by
  simp only [memByte, kept_wramByte h, kept_cpuRead h]

end Agree

/-! ## Rendering fetches (R197, R244, R252) -/

/-- A fetch from a palette address reads the entry in bits 5 to 0, whatever the two drawn bits are (log 36). -/
theorem fetchByte_palette (a : PpuAddr) (s : State) (h : 0x3F00 ≤ a.toNat) :
    (fetchByte a s).setWidth 6 = s.ppu.palette[paletteEntry a] := by
  unfold fetchByte
  rw [if_pos h, BitVec.setWidth_append]
  simp

/-- A fetch below the palette is a read of the cartridge or of nametable RAM and takes no draw. -/
theorem fetch_below (a : PpuAddr) (k : Byte → Ppu → Ppu) (s : State) (h : a.toNat < 0x3F00) :
    fetch a k s = { s with ppu := k (ppuRead s a) { s.ppu with abus := a } } := by
  unfold fetch fetchByte
  rw [if_neg (Nat.not_le.mpr h), if_neg (Nat.not_le.mpr h)]

/-- A nametable fetch lies below the palette. -/
theorem ntAddr_lt (p : Ppu) : p.ntAddr.toNat < 0x3000 := by
  unfold Ppu.ntAddr
  generalize BitVec.setWidth 14 p.v = x
  have h : (x &&& 0x0FFF#14).toNat < 4096 := by
    rw [BitVec.toNat_and]
    exact Nat.lt_of_le_of_lt Nat.and_le_right (by decide)
  have e : (0x2000#14).toNat ||| (x &&& 0x0FFF#14).toNat = 8192 + (x &&& 0x0FFF#14).toNat :=
    (Nat.two_pow_add_eq_or_of_lt (i := 13) (by omega) 1).symm
  rw [BitVec.toNat_or]
  omega

/-! ## The byte on the bus -/

theorem bgFetch_cpuBus (s : State) : (bgFetch s).cpuBus = s.cpuBus := by
  unfold bgFetch
  dsimp only
  split
  · split <;> rfl
  · split <;> rfl

theorem spriteEvalDot_cpuBus (s : State) : (spriteEvalDot s).cpuBus = s.cpuBus := by
  have hs : ∀ t : State, t.cpuBus = s.cpuBus →
      (if t.ppu.evalOvfDot = some s.ppu.dot then { t with ppu := { t.ppu with spriteOverflow := true } }
        else t : State).cpuBus = s.cpuBus := by
    intro t ht
    split <;> exact ht
  unfold spriteEvalDot
  dsimp only
  split
  · apply hs
    split
    · rfl
    · split
      · split <;> rfl
      · rfl
  · rfl

theorem slotFetch_cpuBus (i k : Nat) (s : State) : (slotFetch i k s).cpuBus = s.cpuBus := by
  unfold slotFetch
  split
  · rfl
  · split
    · rfl
    · split <;> rfl

theorem spriteFetchDot_cpuBus (s : State) : (spriteFetchDot s).cpuBus = s.cpuBus := by
  unfold spriteFetchDot
  dsimp only
  split
  · simp only [slotFetch_cpuBus]
  · rfl

theorem renderDot_cpuBus (s : State) : (renderDot s).cpuBus = s.cpuBus := by
  unfold renderDot
  split
  · exact (spriteFetchDot_cpuBus _).trans ((spriteEvalDot_cpuBus _).trans (bgFetch_cpuBus s))
  · rfl

theorem ppuObserve_cpuBus (s : State) : (ppuObserve s).cpuBus = s.cpuBus := by
  unfold ppuObserve
  split <;> rfl

theorem ppuDot_cpuBus (s : State) : (ppuDot s).cpuBus = s.cpuBus :=
  (ppuObserve_cpuBus _).trans (renderDot_cpuBus _)

theorem ppuDots_cpuBus (n : Nat) (s : State) : (ppuDots n s).cpuBus = s.cpuBus := by
  induction n generalizing s with
  | zero => rfl
  | succ n ih => exact (ih _).trans (ppuDot_cpuBus s)

theorem dmcReader_cpuBus (s : State) : (dmcReader s).cpuBus = s.cpuBus := by
  unfold dmcReader
  split <;> rfl

theorem sampleCheck_cpuBus (s : State) : (sampleCheck s).cpuBus = s.cpuBus := by
  unfold sampleCheck
  split
  · dsimp only
    split <;> rfl
  · rfl

theorem apuCycle_cpuBus (s : State) : (apuCycle s).cpuBus = s.cpuBus :=
  (sampleCheck_cpuBus _).trans (dmcReader_cpuBus _)

/-- The end of a cycle keeps the byte its access left on the bus (R40). -/
theorem cycleEnd_cpuBus (s : State) : (cycleEnd s).cpuBus = s.cpuBus :=
  (apuCycle_cpuBus _).trans (ppuDots_cpuBus _ s)

/-- An access of plain memory drives its byte. -/
theorem readAccess_memByte {a : Word} {s : State} {b : Byte} (h : memByte s a = some b) :
    (readAccess a s).cpuBus = b := by
  unfold memByte at h
  unfold readAccess
  split at h
  · rename_i h1
    rw [if_pos h1]
    exact Option.some.inj h
  · rename_i h1
    split at h
    · cases h
    · rename_i h2
      have e15 : a ≠ 0x4015#16 := by rintro rfl; exact h2 (by decide)
      have e16 : a ≠ 0x4016#16 := by rintro rfl; exact h2 (by decide)
      have e17 : a ≠ 0x4017#16 := by rintro rfl; exact h2 (by decide)
      rw [if_neg h1, if_neg (by omega), if_neg e15, if_neg e16, if_neg e17, if_neg (by omega), h]
      rfl

/-- A CPU read of plain memory gives the byte the memory holds, whatever DMA came first (R58, R203). -/
theorem cpuRead_memByte {a : Word} {s : State} {b : Byte} (h : memByte s a = some b) : (cpuRead a s).cpuBus = b := by
  unfold cpuRead cycle
  rw [cycleEnd_cpuBus]
  refine readAccess_memByte ?_
  rw [kept_memByte (ppuDots_same _ _).2, kept_memByte (serviceDma_same a s).2, h]

end Sys2Proof.Machine
end

