-- ==== Sys2Proof/Laws/Operands.lean ====
section
/-!
SUPPORT. One law for each named operation of Machine/Ops.lean and Machine/Operands.lean that makes no write: what it does to
the registers, and that it leaves the kept state alone.
-/

namespace Sys2Proof.Machine

/-- PC moved on by n. -/
def Regs.plus (r : Regs) (n : Nat) : Regs := { r with pc := r.pc + BitVec.ofNat 16 n }

theorem Regs.plus_plus (r : Regs) (m n : Nat) : (r.plus m).plus n = r.plus (m + n) := by
  simp only [Regs.plus, BitVec.add_assoc, BitVec.ofNat_add]

/-- `t` follows `s` after n bytes fetched at PC, with nothing else of the registers or the kept state changed. -/
def Fetched (n : Nat) (s t : State) : Prop := t.regs = s.regs.plus n ∧ t.kept = s.kept

theorem Fetched.refl (s : State) : Fetched 0 s s := ⟨by simp [Regs.plus], rfl⟩

theorem Fetched.trans {m n : Nat} {s t u : State} (h : Fetched m s t) (k : Fetched n t u) : Fetched (m + n) s u :=
  ⟨by rw [k.1, h.1, Regs.plus_plus], k.2.trans h.2⟩

theorem Fetched.read {n : Nat} {s t : State} (h : Fetched n s t) (a : Word) : Fetched n s (cpuRead a t) :=
  ⟨(cpuRead_same a t).1.trans h.1, (cpuRead_same a t).2.trans h.2⟩

theorem Fetched.poll {n : Nat} {s t : State} (h : Fetched n s t) : Fetched n s (poll t) := ⟨h.1, h.2⟩

theorem jump_regs (a : Word) (s : State) : (s.jump a).regs = { s.regs with pc := a } := rfl

theorem jump_kept (a : Word) (s : State) : (s.jump a).kept = s.kept := rfl

theorem readPc_fetched (s : State) : Fetched 1 s (readPc s) := by
  have h := cpuRead_same s.regs.pc s
  unfold readPc
  dsimp only
  exact ⟨by rw [jump_regs, h.1]; rfl, by rw [jump_kept, h.2]⟩

theorem Fetched.readPc {n : Nat} {s t : State} (h : Fetched n s t) : Fetched (n + 1) s (readPc t) :=
  h.trans (readPc_fetched t)

theorem Fetched.dummyPc {n : Nat} {s t : State} (h : Fetched n s t) : Fetched n s (dummyPc t) := h.read _

theorem Fetched.dummyStack {n : Nat} {s t : State} (h : Fetched n s t) : Fetched n s (dummyStack t) := h.read _

theorem Fetched.index {n : Nat} {s t : State} (h : Fetched n s t) :
    t.regs.a = s.regs.a ∧ t.regs.x = s.regs.x ∧ t.regs.y = s.regs.y ∧ t.regs.sp = s.regs.sp ∧ t.regs.p = s.regs.p := by
  rw [h.1]
  exact ⟨rfl, rfl, rfl, rfl, rfl⟩

/-- A read of page zero gives its byte: page zero is work RAM (R57). -/
theorem zeroPage_memByte (s : State) (z : Byte) : memByte s (zext16 z) = some (wramByte s (zext16 z)) := by
  unfold memByte
  rw [if_pos]
  have := z.isLt
  simp only [zext16, BitVec.toNat_setWidth]
  omega

theorem Fetched.zeroPage {n : Nat} {s t : State} (h : Fetched n s t) (z : Byte) :
    (cpuRead (zext16 z) t).cpuBus = wramByte s (zext16 z) :=
  cpuRead_memByte ((zeroPage_memByte t z).trans (congrArg some (kept_wramByte h.2 _)))

/-! ## Addressing modes, from the state before the opcode fetch -/

theorem zp_law (z : Byte) {s t : State} (h : Fetched 1 s t) : Fetched 2 s (zp z t).st ∧ (zp z t).ea = zext16 z :=
  ⟨h.readPc, rfl⟩

theorem zpX_law (z : Byte) {s t : State} (h : Fetched 1 s t) :
    Fetched 2 s (zpIndexed Regs.x z t).st ∧ (zpIndexed Regs.x z t).ea = zext16 (z + s.regs.x) := by
  have k := h.readPc.read (zext16 z)
  exact ⟨k, congrArg (fun x => zext16 (z + x)) k.index.2.1⟩

theorem zpY_law (z : Byte) {s t : State} (h : Fetched 1 s t) :
    Fetched 2 s (zpIndexed Regs.y z t).st ∧ (zpIndexed Regs.y z t).ea = zext16 (z + s.regs.y) := by
  have k := h.readPc.read (zext16 z)
  exact ⟨k, congrArg (fun x => zext16 (z + x)) k.index.2.2.1⟩

theorem abs_law (lo hi : Byte) {s t : State} (h : Fetched 1 s t) :
    Fetched 3 s (abs lo hi t).st ∧ (abs lo hi t).ea = w16 hi lo := ⟨h.readPc.readPc, rfl⟩

/-- What an indexed mode leaves: the address facts of R73. -/
def IndexedAt (e : Indexed) (base : Word) (index : Byte) : Prop :=
  e.ea = base + zext16 index ∧ e.raw = w16 (hiByte base) (loByte base + index) ∧
    e.crossed = decide (0xFF < (loByte base).toNat + index.toNat) ∧ e.high = hiByte base

theorem w16_toNat (hi lo : Byte) : (w16 hi lo).toNat = hi.toNat * 256 + lo.toNat := by
  have h := BitVec.toNat_append hi lo
  rw [← Nat.shiftLeft_add_eq_or_of_lt lo.isLt, Nat.shiftLeft_eq] at h
  exact h

theorem loByte_toNat (a : Word) : (loByte a).toNat = a.toNat % 256 := BitVec.toNat_setWidth ..

theorem hiByte_toNat (a : Word) : (hiByte a).toNat = a.toNat / 256 := by
  have := a.isLt
  simp only [hiByte, BitVec.toNat_setWidth, BitVec.toNat_ushiftRight, Nat.shiftRight_eq_div_pow]
  omega

theorem loByte_w16 (hi lo : Byte) : loByte (w16 hi lo) = lo := by
  apply BitVec.eq_of_toNat_eq
  have := lo.isLt
  rw [loByte_toNat, w16_toNat]
  omega

theorem hiByte_w16 (hi lo : Byte) : hiByte (w16 hi lo) = hi := by
  apply BitVec.eq_of_toNat_eq
  have := lo.isLt
  rw [hiByte_toNat, w16_toNat]
  omega

theorem indexFrom_at (lo hi index : Byte) (s : State) : IndexedAt (indexFrom lo hi index s) (w16 hi lo) index := by
  unfold IndexedAt
  rw [loByte_w16, hiByte_w16]
  exact ⟨rfl, rfl, rfl, rfl⟩

theorem absX_law (lo hi : Byte) {s t : State} (h : Fetched 1 s t) :
    Fetched 3 s (absIndexed Regs.x lo hi t).st ∧ IndexedAt (absIndexed Regs.x lo hi t) (w16 hi lo) s.regs.x := by
  have k := h.readPc.readPc
  refine ⟨k, ?_⟩
  have e := indexFrom_at lo hi (readPc (readPc t)).regs.x (readPc (readPc t))
  rw [k.index.2.1] at e
  unfold absIndexed
  dsimp only
  rw [k.index.2.1]
  exact e

theorem absY_law (lo hi : Byte) {s t : State} (h : Fetched 1 s t) :
    Fetched 3 s (absIndexed Regs.y lo hi t).st ∧ IndexedAt (absIndexed Regs.y lo hi t) (w16 hi lo) s.regs.y := by
  have k := h.readPc.readPc
  refine ⟨k, ?_⟩
  unfold absIndexed
  dsimp only
  rw [k.index.2.2.1]
  exact indexFrom_at _ _ _ _

theorem izx_law (z : Byte) {s t : State} (h : Fetched 1 s t) :
    Fetched 2 s (izx z t).st ∧ (izx z t).ea = zpPointer s (z + s.regs.x) := by
  have k1 := h.readPc.read (zext16 z)
  have k2 := k1.read (zext16 (z + (cpuRead (zext16 z) (readPc t)).regs.x))
  have k3 := k2.read (zext16 (z + (cpuRead (zext16 z) (readPc t)).regs.x + 1))
  refine ⟨k3, ?_⟩
  unfold izx
  dsimp only
  rw [k2.zeroPage, k1.zeroPage, k1.index.2.1]
  rfl

theorem izy_law (z : Byte) {s t : State} (h : Fetched 1 s t) :
    Fetched 2 s (izy z t).st ∧ IndexedAt (izy z t) (zpPointer s z) s.regs.y := by
  have k1 := h.readPc
  have k2 := k1.read (zext16 z)
  have k3 := k2.read (zext16 (z + 1))
  refine ⟨k3, ?_⟩
  unfold izy
  dsimp only
  rw [k2.zeroPage, k1.zeroPage, k3.index.2.2.1]
  exact indexFrom_at _ _ _ _

/-- Without a page cross the uncorrected address is EA (R76). -/
theorem raw_eq_ea {e : Indexed} {base : Word} {index : Byte} (h : IndexedAt e base index) (c : e.crossed = false) :
    e.raw = e.ea := by
  obtain ⟨h1, h2, h3, -⟩ := h
  rw [h3, decide_eq_false_iff_not] at c
  rw [h1, h2]
  apply BitVec.eq_of_toNat_eq
  have := index.isLt
  have := base.isLt
  rw [w16_toNat, BitVec.toNat_add, BitVec.toNat_add, hiByte_toNat, loByte_toNat]
  rw [loByte_toNat] at c
  have hz : (zext16 index).toNat = index.toNat := by simp only [zext16, BitVec.toNat_setWidth]; omega
  omega

end Sys2Proof.Machine
end

