-- ==== Sys2Proof/Laws/Writes.lean ====
section
/-!
SUPPORT. What a CPU write does to the registers and to every memory, and what a push does.
-/

namespace Sys2Proof.Machine

/-! ## One write access -/

theorem ppuWrite_regs (a : PpuAddr) (v : Byte) (s : State) : (ppuWrite a v s).regs = s.regs := by
  unfold ppuWrite
  split
  · rfl
  · split <;> rfl

/-- What no write of a PPU or cartridge register changes. -/
def Untouched (s t : State) : Prop :=
  t.regs = s.regs ∧ t.wram = s.wram ∧ t.cart.prgRam = s.cart.prgRam ∧ t.cart.prgRom = s.cart.prgRom ∧
    t.cart.header = s.cart.header ∧ t.cart.mapper = s.cart.mapper ∧ t.params = s.params ∧ t.halted = s.halted ∧
    t.resetPending = s.resetPending ∧ t.fatal = s.fatal

theorem chrWrite_keeps (c : Cartridge) (a : PpuAddr) (v : Byte) :
    (c.chrWrite a v).prgRam = c.prgRam ∧ (c.chrWrite a v).prgRom = c.prgRom ∧ (c.chrWrite a v).header = c.header ∧
      (c.chrWrite a v).mapper = c.mapper := by
  unfold Cartridge.chrWrite
  split <;> exact ⟨rfl, rfl, rfl, rfl⟩

theorem ppuWrite_untouched (a : PpuAddr) (v : Byte) (s : State) : Untouched s (ppuWrite a v s) := by
  unfold ppuWrite
  split
  · obtain ⟨h1, h2, h3, h4⟩ := chrWrite_keeps s.cart a v
    exact ⟨rfl, rfl, h1, h2, h3, h4, rfl, rfl, rfl, rfl⟩
  · split <;> exact ⟨rfl, rfl, rfl, rfl, rfl, rfl, rfl, rfl, rfl, rfl⟩

theorem writeData_untouched (v : Byte) (s : State) : Untouched s (writeData v s) := by
  unfold writeData
  dsimp only
  split
  · exact ⟨rfl, rfl, rfl, rfl, rfl, rfl, rfl, rfl, rfl, rfl⟩
  · split
    · exact ppuWrite_untouched _ v { s with ppu := s.ppu.stepV }
    · exact ⟨rfl, rfl, rfl, rfl, rfl, rfl, rfl, rfl, rfl, rfl⟩

theorem ppuRegWrite_untouched (r : BitVec 3) (v : Byte) (s : State) : Untouched s (ppuRegWrite r v s) := by
  have hp : ∀ q : Ppu, Untouched s { s with ppu := q } :=
    fun q => ⟨rfl, rfl, rfl, rfl, rfl, rfl, rfl, rfl, rfl, rfl⟩
  unfold ppuRegWrite
  dsimp only
  iterate 7
    split
    · exact hp _
  exact writeData_untouched v { s with ppu := { s.ppu with ioLatch := v } }

/-- A write at `a` other than to work RAM or cartridge space leaves these alone. -/
theorem routeWrite_untouched {a : Word} (v : Byte) (s : State) (h1 : ¬a.toNat < 0x2000) (h2 : a.toNat < 0x4020) :
    Untouched s (routeWrite a v s) := by
  unfold routeWrite
  rw [if_neg h1]
  split
  · exact ppuRegWrite_untouched _ v s
  split
  · exact ⟨rfl, rfl, rfl, rfl, rfl, rfl, rfl, rfl, rfl, rfl⟩
  split
  · exact ⟨rfl, rfl, rfl, rfl, rfl, rfl, rfl, rfl, rfl, rfl⟩
  split
  · unfold writeStrobe
    split <;> exact ⟨rfl, rfl, rfl, rfl, rfl, rfl, rfl, rfl, rfl, rfl⟩
  split
  · exact ⟨rfl, rfl, rfl, rfl, rfl, rfl, rfl, rfl, rfl, rfl⟩
  · exact ⟨rfl, rfl, rfl, rfl, rfl, rfl, rfl, rfl, rfl, rfl⟩

theorem routeWrite_ram {a : Word} (v : Byte) (s : State) (h : a.toNat < 0x2000) :
    routeWrite a v s = { s with wram := s.wram.set (a.toNat % 2048) v } := if_pos h

theorem routeWrite_cart {a : Word} (v : Byte) (s : State) (h : 0x4020 ≤ a.toNat) :
    routeWrite a v s = { s with cart := s.cart.cpuWrite s.params a v } := by
  have e14 : a ≠ 0x4014#16 := by rintro rfl; exact absurd h (by decide)
  have e15 : a ≠ 0x4015#16 := by rintro rfl; exact absurd h (by decide)
  have e16 : a ≠ 0x4016#16 := by rintro rfl; exact absurd h (by decide)
  unfold routeWrite
  rw [if_neg (by omega), if_neg (by omega), if_neg e14, if_neg e15, if_neg e16, if_neg (by omega), if_neg (by omega)]

theorem cartWrite_keeps (p : Params) (c : Cartridge) (a : Word) (v : Byte) :
    (c.cpuWrite p a v).prgRom = c.prgRom ∧ (c.cpuWrite p a v).header = c.header ∧
      (c.cpuWrite p a v).mapper = c.mapper := by
  unfold Cartridge.cpuWrite
  split
  · exact ⟨rfl, rfl, rfl⟩
  split
  · split <;> exact ⟨rfl, rfl, rfl⟩
  · split <;> exact ⟨rfl, rfl, rfl⟩

/-- What a write keeps whatever its address. -/
theorem routeWrite_fixed (a : Word) (v : Byte) (s : State) :
    (routeWrite a v s).regs = s.regs ∧ (routeWrite a v s).cart.prgRom = s.cart.prgRom ∧
      (routeWrite a v s).cart.header = s.cart.header ∧ (routeWrite a v s).cart.mapper = s.cart.mapper ∧
      (routeWrite a v s).params = s.params ∧ (routeWrite a v s).halted = s.halted ∧
      (routeWrite a v s).resetPending = s.resetPending ∧ (routeWrite a v s).fatal = s.fatal := by
  by_cases h1 : a.toNat < 0x2000
  · rw [routeWrite_ram v s h1]
    exact ⟨rfl, rfl, rfl, rfl, rfl, rfl, rfl, rfl⟩
  · by_cases h2 : a.toNat < 0x4020
    · obtain ⟨k1, -, -, k4, k5, k6, k7, k8, k9, k10⟩ := routeWrite_untouched v s h1 h2
      exact ⟨k1, k4, k5, k6, k7, k8, k9, k10⟩
    · rw [routeWrite_cart v s (by omega)]
      obtain ⟨k1, k2, k3⟩ := cartWrite_keeps s.params s.cart a v
      exact ⟨rfl, k1, k2, k3, rfl, rfl, rfl, rfl⟩

theorem routeWrite_wramByte (a : Word) (v : Byte) (s : State) (b : Word) (d : Decidable (hitsRam a b)) :
    wramByte (routeWrite a v s) b = @ite _ (hitsRam a b) d v (wramByte s b) := by
  by_cases h1 : a.toNat < 0x2000
  · rw [routeWrite_ram v s h1]
    unfold wramByte
    dsimp only
    rw [Memory.get?_set]
    split
    · rename_i h
      rw [if_pos ⟨h1, h⟩]
      rfl
    · rename_i h
      rw [if_neg (fun k => h k.2)]
  · rw [if_neg (fun k => h1 k.1)]
    unfold wramByte
    by_cases h2 : a.toNat < 0x4020
    · rw [(routeWrite_untouched v s h1 h2).2.1]
    · rw [routeWrite_cart v s (by omega)]

theorem routeWrite_prgRamByte (a : Word) (v : Byte) (s : State) (b : Word) (d : Decidable (hitsPrgRam s a b)) :
    (routeWrite a v s).cart.prgRamByte b = @ite _ (hitsPrgRam s a b) d v (s.cart.prgRamByte b) := by
  by_cases h1 : a.toNat < 0x2000
  · rw [routeWrite_ram v s h1, if_neg (fun k => by have := k.1; omega)]
  by_cases h2 : a.toNat < 0x4020
  · rw [if_neg (fun k => by have := k.1; omega)]
    unfold Cartridge.prgRamByte
    rw [(routeWrite_untouched v s h1 h2).2.2.1]
  rw [routeWrite_cart v s (by omega)]
  show (s.cart.cpuWrite s.params a v).prgRamByte b = _
  unfold Cartridge.cpuWrite
  split
  · rw [if_neg (fun k => by have := k.1; omega)]
  split
  · split
    · rename_i h3 h4 h5
      unfold Cartridge.prgRamByte
      dsimp only
      rw [Memory.get?_set]
      split
      · rename_i h
        rw [if_pos ⟨by omega, h4, h5, h⟩]
        rfl
      · rename_i h
        rw [if_neg (fun k => h k.2.2.2)]
    · rename_i h5
      rw [if_neg (fun k => h5 k.2.2.1)]
  · rename_i h4
    rw [if_neg (fun k => h4 k.2.1)]
    split <;> rfl

/-! ## One write cycle -/

/-- A write cycle, with the state its access finds. -/
theorem cpuWrite_eq (a : Word) (v : Byte) (s : State) :
    ∃ u, SameKept s u ∧ SameKept (writeAccess a v u) (cpuWrite a v s) ∧ (cpuWrite a v s).cpuBus = v :=
  ⟨_, ppuDots_same _ s, cycleEnd_same _, cycleEnd_cpuBus _⟩

theorem writeAccess_kept_regs (a : Word) (v : Byte) (s : State) :
    (writeAccess a v s).regs = (routeWrite a v s).regs ∧ (writeAccess a v s).kept = (routeWrite a v s).kept := ⟨rfl, rfl⟩

theorem cpuWrite_regs (a : Word) (v : Byte) (s : State) : (cpuWrite a v s).regs = s.regs := by
  obtain ⟨u, h1, h2, -⟩ := cpuWrite_eq a v s
  rw [h2.1, (writeAccess_kept_regs a v u).1, (routeWrite_fixed a v u).1, h1.1]

theorem cpuWrite_cpuBus (a : Word) (v : Byte) (s : State) : (cpuWrite a v s).cpuBus = v := by
  obtain ⟨u, -, -, h⟩ := cpuWrite_eq a v s
  exact h

/-- A store is a matter of the kept state alone. -/
theorem Stored.of_kept {ea : Word} {v : Byte} {s u t w : State} (h1 : u.kept = s.kept) (h2 : Stored ea v u t)
    (h3 : w.kept = t.kept) : Stored ea v s w := by
  have e : ∀ a, hitsPrgRam u ea a = hitsPrgRam s ea a := fun a => by
    unfold hitsPrgRam
    rw [kept_ramWritable h1]
  refine ⟨fun a h => ?_, fun a h => ?_, fun a h => ?_, fun a h => ?_, ?_, ?_, ?_, ?_, ?_, ?_, ?_, ?_, fun h => ?_,
    fun h => ?_, fun h => ?_⟩
  · rw [kept_wramByte h3, h2.ramHit a h]
  · rw [kept_wramByte h3, h2.ramMiss a h, kept_wramByte h1]
  · rw [kept_prgRamByte h3, h2.prgRamHit a (by rw [e]; exact h)]
  · rw [kept_prgRamByte h3, h2.prgRamMiss a (by rw [e]; exact h), kept_prgRamByte h1]
  · rw [kept_prgRom h3, h2.prgRom, kept_prgRom h1]
  · rw [kept_header h3, h2.header, kept_header h1]
  · rw [kept_mapper h3, h2.mapper, kept_mapper h1]
  · rw [kept_params h3, h2.params, kept_params h1]
  · rw [kept_halted h3, h2.halted, kept_halted h1]
  · rw [kept_resetPending h3, h2.resetPending, kept_resetPending h1]
  · rw [kept_fatal h3, h2.fatal, kept_fatal h1]
  · rw [kept_buttons0 h3, h2.buttons.1, kept_buttons0 h1, kept_buttons1 h3, h2.buttons.2, kept_buttons1 h1]
    exact ⟨rfl, rfl⟩
  · rw [kept_mmc3 h3, h2.mmc3 h, kept_mmc3 h1]
  · obtain ⟨k1, k2, k3, k4⟩ := h2.ppu h
    exact ⟨by rw [kept_ppu h3, k1, kept_ppu h1], by rw [kept_ciram h3, k2, kept_ciram h1],
      by rw [kept_chr h3, k3, kept_chr h1], by rw [kept_fourScreen h3, k4, kept_fourScreen h1]⟩
  · obtain ⟨k1, k2⟩ := h2.apu h
    exact ⟨by rw [kept_apu h3, k1, kept_apu h1], by rw [kept_strobe h3, k2, kept_strobe h1]⟩

/-- Two writes of one address leave what the second leaves. -/
theorem Stored.twice {ea : Word} {v w : Byte} {s t u : State} (h : Stored ea v s t) (k : Stored ea w t u) :
    Stored ea w s u := by
  have e : ∀ a, hitsPrgRam t ea a ↔ hitsPrgRam s ea a := fun a => by
    unfold hitsPrgRam
    by_cases hea : ea.toNat < 0x8000
    · have hm := h.mmc3 hea
      have h1 : t.cart.mmc3.ramEnable = s.cart.mmc3.ramEnable := by
        have := congrArg Mmc3.ramEnable hm
        exact this
      have h2 : t.cart.mmc3.ramProtect = s.cart.mmc3.ramProtect := by
        have := congrArg Mmc3.ramProtect hm
        exact this
      simp only [Cartridge.ramWritable, h.mapper, h.header, h.params, h1, h2]
    · exact ⟨fun q => absurd q.2.1 hea, fun q => absurd q.2.1 hea⟩
  refine ⟨k.ramHit, fun a ha => ?_, fun a ha => k.prgRamHit a ((e a).2 ha), fun a ha => ?_, ?_, ?_, ?_, ?_, ?_, ?_, ?_,
    ?_, fun ha => ?_, fun ha => ?_, fun ha => ?_⟩
  · rw [k.ramMiss a ha, h.ramMiss a ha]
  · rw [k.prgRamMiss a (fun q => ha ((e a).1 q)), h.prgRamMiss a ha]
  · rw [k.prgRom, h.prgRom]
  · rw [k.header, h.header]
  · rw [k.mapper, h.mapper]
  · rw [k.params, h.params]
  · rw [k.halted, h.halted]
  · rw [k.resetPending, h.resetPending]
  · rw [k.fatal, h.fatal]
  · exact ⟨k.buttons.1.trans h.buttons.1, k.buttons.2.trans h.buttons.2⟩
  · rw [k.mmc3 ha, h.mmc3 ha]
  · obtain ⟨h1, h2, h3, h4⟩ := h.ppu ha
    obtain ⟨k1, k2, k3, k4⟩ := k.ppu ha
    exact ⟨k1.trans h1, k2.trans h2, k3.trans h3, k4.trans h4⟩
  · exact ⟨(k.apu ha).1.trans (h.apu ha).1, (k.apu ha).2.trans (h.apu ha).2⟩

/-- What a PPU register write leaves of the other units. -/
def OthersSame (s t : State) : Prop :=
  t.port0 = s.port0 ∧ t.port1 = s.port1 ∧ t.cart.mmc3 = s.cart.mmc3 ∧ t.apu = s.apu ∧ t.strobe = s.strobe

theorem ppuRegWrite_others (r : BitVec 3) (v : Byte) (s : State) : OthersSame s (ppuRegWrite r v s) := by
  have hp : ∀ q : Ppu, OthersSame s { s with ppu := q } := fun q => ⟨rfl, rfl, rfl, rfl, rfl⟩
  unfold ppuRegWrite
  dsimp only
  iterate 7
    split
    · exact hp _
  unfold writeData
  dsimp only
  split
  · exact hp _
  split
  · unfold ppuWrite Cartridge.chrWrite
    split
    · refine ⟨rfl, rfl, ?_, rfl, rfl⟩
      dsimp only
      split <;> rfl
    · split <;> exact ⟨rfl, rfl, rfl, rfl, rfl⟩
  · exact hp _

/-- The settings of the units that a write's address does not belong to. -/
theorem routeWrite_units (a : Word) (v : Byte) (s : State) :
    ((routeWrite a v s).port0.buttons = s.port0.buttons ∧ (routeWrite a v s).port1.buttons = s.port1.buttons) ∧
    (a.toNat < 0x8000 → (routeWrite a v s).cart.mmc3.settings = s.cart.mmc3.settings) ∧
    (a.toNat < 0x2000 ∨ 0x4000 ≤ a.toNat → (routeWrite a v s).ppu.settings = s.ppu.settings ∧
      (routeWrite a v s).ciram = s.ciram ∧ (routeWrite a v s).cart.chr = s.cart.chr ∧
      (routeWrite a v s).cart.fourScreen = s.cart.fourScreen) ∧
    (a.toNat < 0x4000 ∨ 0x4018 ≤ a.toNat → (routeWrite a v s).apu.settings = s.apu.settings ∧
      (routeWrite a v s).strobe = s.strobe) := by
  by_cases h1 : a.toNat < 0x2000
  · rw [routeWrite_ram v s h1]
    exact ⟨⟨rfl, rfl⟩, fun _ => rfl, fun _ => ⟨rfl, rfl, rfl, rfl⟩, fun _ => ⟨rfl, rfl⟩⟩
  by_cases h2 : 0x4020 ≤ a.toNat
  · rw [routeWrite_cart v s h2]
    refine ⟨⟨rfl, rfl⟩, fun h => ?_, fun _ => ⟨rfl, rfl, ?_⟩, fun _ => ⟨rfl, rfl⟩⟩
    · show (s.cart.cpuWrite s.params a v).mmc3.settings = _
      unfold Cartridge.cpuWrite
      split
      · rfl
      · split <;> rfl
    · show (s.cart.cpuWrite s.params a v).chr = _ ∧ (s.cart.cpuWrite s.params a v).fourScreen = _
      unfold Cartridge.cpuWrite
      split
      · exact ⟨rfl, rfl⟩
      split
      · split <;> exact ⟨rfl, rfl⟩
      · split <;> exact ⟨rfl, rfl⟩
  unfold routeWrite
  rw [if_neg h1]
  by_cases h3 : a.toNat < 0x4000
  · rw [if_pos h3]
    obtain ⟨p0, p1, m, ap, st⟩ := ppuRegWrite_others (a.setWidth 3) v s
    refine ⟨⟨by rw [p0], by rw [p1]⟩, fun _ => by rw [m], fun h => by omega, fun _ => ⟨by rw [ap], st⟩⟩
  · rw [if_neg h3]
    refine ⟨?_, fun _ => ?_, fun _ => ?_, fun h => ?_⟩
    · unfold writeStrobe
      repeat' split
      all_goals exact ⟨rfl, rfl⟩
    · unfold writeStrobe
      repeat' split
      all_goals first | rfl | omega
    · unfold writeStrobe
      repeat' split
      all_goals first | exact ⟨rfl, rfl, rfl, rfl⟩ | omega
    · have e14 : a ≠ 0x4014#16 := by rintro rfl; rcases h with h | h <;> exact absurd h (by decide)
      have e15 : a ≠ 0x4015#16 := by rintro rfl; rcases h with h | h <;> exact absurd h (by decide)
      have e16 : a ≠ 0x4016#16 := by rintro rfl; rcases h with h | h <;> exact absurd h (by decide)
      rw [if_neg e14, if_neg e15, if_neg e16, if_neg (by omega)]
      split <;> exact ⟨rfl, rfl⟩

theorem routeWrite_stored (ea : Word) (v : Byte) (s : State) : Stored ea v s (routeWrite ea v s) := by
  classical
  obtain ⟨-, f1, f2, f3, f4, f5, f6, f7⟩ := routeWrite_fixed ea v s
  obtain ⟨u1, u2, u3, u4⟩ := routeWrite_units ea v s
  exact ⟨fun a h => (routeWrite_wramByte ea v s a (Classical.propDecidable _)).trans (if_pos h),
    fun a h => (routeWrite_wramByte ea v s a (Classical.propDecidable _)).trans (if_neg h),
    fun a h => (routeWrite_prgRamByte ea v s a (Classical.propDecidable _)).trans (if_pos h),
    fun a h => (routeWrite_prgRamByte ea v s a (Classical.propDecidable _)).trans (if_neg h),
    f1, f2, f3, f4, f5, f6, f7, u1, u2, u3, u4⟩

theorem cpuWrite_stored (ea : Word) (v : Byte) (s : State) : Stored ea v s (cpuWrite ea v s) := by
  obtain ⟨u, h1, h2, -⟩ := cpuWrite_eq ea v s
  exact Stored.of_kept h1.2 (routeWrite_stored ea v u) h2.2

/-- A write to work RAM changes nothing else of the kept state. -/
theorem cpuWrite_ram {a : Word} (v : Byte) (s : State) (h : a.toNat < 0x2000) :
    (cpuWrite a v s).kept = { s.kept with wram := s.wram.set (a.toNat % 2048) v } := by
  obtain ⟨u, h1, h2, -⟩ := cpuWrite_eq a v s
  have hk : (cpuWrite a v s).kept = (routeWrite a v u).kept := h2.2
  rw [hk, routeWrite_ram v u h, ← h1.2, ← kept_wram h1.2]
  rfl

end Sys2Proof.Machine
end

