-- ==== Sys2Proof/Laws/Classes.lean ====
section
/-!
SUPPORT. One law for each shared operation of Machine/Operands.lean that ends an instruction, and for the stack operations:
everything it can do to the registers, the kept state and the byte on the bus.
-/

namespace Sys2Proof.Machine

/-! ## Implied and immediate -/

theorem mapRegs_law (f : Regs → Regs) (s : State) :
    (s.mapRegs f).regs = f s.regs ∧ (s.mapRegs f).kept = s.kept ∧ (s.mapRegs f).cpuBus = s.cpuBus := ⟨rfl, rfl, rfl⟩

theorem implied_law (f : Regs → Regs) {n : Nat} {s t : State} (h : Fetched n s t) :
    (implied f t).regs = f (s.regs.plus n) ∧ (implied f t).kept = s.kept := by
  have k := h.poll.dummyPc
  obtain ⟨h1, h2, -⟩ := mapRegs_law f (dummyPc (poll t))
  unfold implied
  exact ⟨by rw [h1, k.1], by rw [h2, k.2]⟩

theorem immediate_law (f : Byte → Regs → Regs) (m : Byte) {n : Nat} {s t : State} (h : Fetched n s t) :
    (immediate f m t).regs = f m (s.regs.plus (n + 1)) ∧ (immediate f m t).kept = s.kept := by
  have k := h.poll.readPc
  obtain ⟨h1, h2, -⟩ := mapRegs_law (f m) (readPc (poll t))
  unfold immediate
  exact ⟨by rw [h1, k.1], by rw [h2, k.2]⟩

theorem draws_kept (n : Nat) (s : State) : ({ s with draws := n } : State).kept = s.kept := rfl

theorem poll_same (s : State) : SameKept s (poll s) := ⟨rfl, rfl⟩

theorem immediateDraw_law (draw : Nat → Byte) (f : Byte → Byte → Regs → Regs) (m : Byte) {n : Nat} {s t : State}
    (h : Fetched n s t) :
    (immediateDraw draw f m t).regs = f (draw t.draws) m (s.regs.plus (n + 1)) ∧
      (immediateDraw draw f m t).kept = s.kept := by
  obtain ⟨h1, h2⟩ := immediate_law (f (draw t.draws)) m h
  unfold immediateDraw
  dsimp only
  rw [draws_kept]
  exact ⟨h1, h2⟩

/-! ## The read class -/

theorem Fetched.reads {n : Nat} {s t : State} (h : Fetched n s t) (a : Word) :
    ∀ b, memByte s a = some b → (cpuRead a t).cpuBus = b :=
  fun _ hb => cpuRead_memByte ((kept_memByte h.2 a).trans hb)

theorem readPlain_law (f : Byte → Regs → Regs) {n : Nat} {s : State} {e : Plain} (h : Fetched n s e.st) :
    (readPlain f e).regs = f (readPlain f e).cpuBus (s.regs.plus n) ∧ (readPlain f e).kept = s.kept ∧
      ∀ b, memByte s e.ea = some b → (readPlain f e).cpuBus = b := by
  have k := h.poll.read e.ea
  obtain ⟨h1, h2, h3⟩ := mapRegs_law (f (cpuRead e.ea (poll e.st)).cpuBus) (cpuRead e.ea (poll e.st))
  unfold readPlain
  dsimp only
  rw [h3]
  exact ⟨by rw [h1, k.1], by rw [h2, k.2], h.poll.reads e.ea⟩

theorem readIndexed_law (f : Byte → Regs → Regs) {n : Nat} {s : State} {e : Indexed} {base : Word} {index : Byte}
    (h : Fetched n s e.st) (he : IndexedAt e base index) :
    (readIndexed f e).regs = f (readIndexed f e).cpuBus (s.regs.plus n) ∧ (readIndexed f e).kept = s.kept ∧
      ∀ b, memByte s (base + zext16 index) = some b → (readIndexed f e).cpuBus = b := by
  rw [← he.1]
  unfold readIndexed
  dsimp only
  cases hc : e.crossed
  · rw [if_neg (by decide)]
    have k := h.poll.read e.raw
    obtain ⟨h1, h2, h3⟩ := mapRegs_law (f (cpuRead e.raw (poll e.st)).cpuBus) (cpuRead e.raw (poll e.st))
    rw [h3, ← raw_eq_ea he hc]
    exact ⟨by rw [h1, k.1], by rw [h2, k.2], h.poll.reads e.raw⟩
  · rw [if_pos rfl]
    have k0 := (h.read e.raw).poll
    have k := k0.read e.ea
    obtain ⟨h1, h2, h3⟩ := mapRegs_law (f (cpuRead e.ea (poll (cpuRead e.raw e.st))).cpuBus)
      (cpuRead e.ea (poll (cpuRead e.raw e.st)))
    rw [h3]
    exact ⟨by rw [h1, k.1], by rw [h2, k.2], k0.reads e.ea⟩

/-! ## The write class -/

theorem Fetched.writes {n : Nat} {s t : State} (h : Fetched n s t) (a : Word) (v : Byte) :
    (cpuWrite a v t).regs = s.regs.plus n ∧ (cpuWrite a v t).cpuBus = v ∧ Stored a v s (cpuWrite a v t) :=
   ⟨by rw [cpuWrite_regs, h.1], cpuWrite_cpuBus a v t, Stored.of_kept h.2 (cpuWrite_stored a v t) rfl⟩

theorem writePlain_law (value : Regs → Byte) {n : Nat} {s : State} {e : Plain} (h : Fetched n s e.st) :
    (writePlain value e).regs = s.regs.plus n ∧ (writePlain value e).cpuBus = value (s.regs.plus n) ∧
      Stored e.ea (value (s.regs.plus n)) s (writePlain value e) := by
  unfold writePlain
  rw [h.1]
  exact h.poll.writes e.ea _

theorem writeIndexed_law (value : Regs → Byte) {n : Nat} {s : State} {e : Indexed} (h : Fetched n s e.st) :
    (writeIndexed value e).regs = s.regs.plus n ∧ (writeIndexed value e).cpuBus = value (s.regs.plus n) ∧
      Stored e.ea (value (s.regs.plus n)) s (writeIndexed value e) := by
  unfold writeIndexed
  dsimp only
  rw [(h.read e.raw).1]
  exact (h.read e.raw).poll.writes e.ea _

/-! ## The read-modify-write class -/

theorem modifyAt_law (g : Bool → Byte → Byte) (f : Byte → Byte → Regs → Regs) (ea : Word) {n : Nat} {s t : State}
    (h : Fetched n s t) :
    ∃ m, (∀ b, memByte s ea = some b → m = b) ∧
      (modifyAt g f ea t).regs = f m (g s.regs.p.c m) (s.regs.plus n) ∧
      (modifyAt g f ea t).cpuBus = g s.regs.p.c m ∧ Stored ea (g s.regs.p.c m) s (modifyAt g f ea t) := by
  have k1 := h.read ea
  refine ⟨(cpuRead ea t).cpuBus, h.reads ea, ?_⟩
  obtain ⟨w1, w2, w3⟩ := k1.writes ea (cpuRead ea t).cpuBus
  unfold modifyAt
  dsimp only
  have hp : (cpuWrite ea (cpuRead ea t).cpuBus (cpuRead ea t)).regs.p.c = s.regs.p.c := by rw [w1]; rfl
  rw [hp]
  generalize hm : (cpuRead ea t).cpuBus = m at w1 w2 w3
  generalize cpuWrite ea m (cpuRead ea t) = u at w1 w2 w3
  obtain ⟨h1, h2, h3⟩ := mapRegs_law (f m (g s.regs.p.c m)) (cpuWrite ea (g s.regs.p.c m) (poll u))
  refine ⟨by rw [h1, cpuWrite_regs]; show f m _ u.regs = _; rw [w1], by rw [h3, cpuWrite_cpuBus], ?_⟩
  have k2 : Stored ea (g s.regs.p.c m) u (cpuWrite ea (g s.regs.p.c m) (poll u)) :=
    Stored.of_kept (poll_same u).2 (cpuWrite_stored ea _ (poll u)) rfl
  exact Stored.of_kept rfl (w3.twice k2) h2

/-! ## The stack -/

theorem stackAddr_toNat (sp : Byte) : (stackAddr sp).toNat = 256 + sp.toNat := by
  revert sp
  decide

theorem stack_ram (sp : Byte) : (stackAddr sp).toNat < 0x2000 := by
  have := sp.isLt
  rw [stackAddr_toNat]
  omega

theorem setSp_law (v : Byte) (s : State) :
    (s.setSp v).regs = { s.regs with sp := v } ∧ (s.setSp v).kept = s.kept ∧ (s.setSp v).cpuBus = s.cpuBus :=
  ⟨rfl, rfl, rfl⟩

/-- A push: the byte at `$0100 | S`, S lowered, nothing else of the registers or the kept state changed (R16, R22). -/
theorem push_law (v : Byte) (s : State) :
    (push v s).regs = { s.regs with sp := s.regs.sp - 1 } ∧
      (push v s).kept = { s.kept with wram := s.wram.set (256 + s.regs.sp.toNat) v } := by
  have e : (stackAddr s.regs.sp).toNat % 2048 = 256 + s.regs.sp.toNat := by
    have := s.regs.sp.isLt
    rw [stackAddr_toNat]
    omega
  unfold push
  dsimp only
  obtain ⟨h1, h2, -⟩ := setSp_law ((cpuWrite (stackAddr s.regs.sp) v s).regs.sp - 1) (cpuWrite (stackAddr s.regs.sp) v s)
  rw [h1, h2, cpuWrite_regs, cpuWrite_ram v s (stack_ram _), e]
  exact ⟨rfl, rfl⟩

/-- A pull: S raised, then the byte at `$0100 | S`; nothing else changed (R16, R22). -/
theorem pull_law (s : State) :
    (pull s).regs = { s.regs with sp := s.regs.sp + 1 } ∧ (pull s).kept = s.kept ∧
      (pull s).cpuBus = wramByte s (stackAddr (s.regs.sp + 1)) := by
  unfold pull
  dsimp only
  obtain ⟨h1, h2, -⟩ := setSp_law (s.regs.sp + 1) s
  have k := cpuRead_same (stackAddr (s.setSp (s.regs.sp + 1)).regs.sp) (s.setSp (s.regs.sp + 1))
  refine ⟨by rw [k.1, h1], by rw [k.2, h2], ?_⟩
  rw [h1]
  apply cpuRead_memByte
  unfold memByte
  rw [if_pos (stack_ram _)]
  rfl

/-- Reading an address from two memory bytes and jumping to it (R47). -/
theorem jumpThrough_law (a a' : Word) (s : State) :
    ∃ lo hi, (jumpThrough a a' s).regs = { s.regs with pc := w16 hi lo } ∧ (jumpThrough a a' s).kept = s.kept ∧
      (∀ b, memByte s a = some b → lo = b) ∧ (∀ b, memByte s a' = some b → hi = b) := by
  have k1 := cpuRead_same a s
  have k2 := cpuRead_same a' (cpuRead a s)
  refine ⟨(cpuRead a s).cpuBus, (cpuRead a' (cpuRead a s)).cpuBus, ?_, ?_, fun b hb => cpuRead_memByte hb,
    fun b hb => cpuRead_memByte ((kept_memByte k1.2 a').trans hb)⟩
  · unfold jumpThrough
    dsimp only
    rw [jump_regs, k2.1, k1.1]
  · unfold jumpThrough
    dsimp only
    rw [jump_kept, k2.2, k1.2]

/-- Strict mode off: an unofficial instruction goes on after its opcode fetch (R83). -/
theorem unofficial_law {s : State} (opcode : Byte) (k : State → State) (h : s.params.strictOpcodes = false) :
    unofficial opcode k s = k (readPc s) := by
  unfold unofficial
  dsimp only
  rw [h]
  rfl

end Sys2Proof.Machine
end

