-- ==== Sys2Proof/Laws/PerInstr.lean ====
section
/-!
SUPPORT. One lemma for each instruction, about it as syntax: the family `Length` (R65, R66).
-/

/-- An instruction's bytes are as many as its length, and its operands as many as its opcode takes. -/
def Sys2Proof.Laws.Length.Statement (i : Sys2Proof.Instr) : Prop :=
  (Sys2Proof.encode i).length = i.length ∧ Sys2Proof.operandCount i.opcode = i.operands.length

theorem Sys2Proof.Laws.Length.brk :
    Sys2Proof.Laws.Length.Statement .brk :=
  ⟨rfl, (by decide : Sys2Proof.operandCount 0x00 = 0)⟩
theorem Sys2Proof.Laws.Length.oraIzx (z : Sys2Proof.Byte) :
    Sys2Proof.Laws.Length.Statement (.oraIzx z) :=
  ⟨rfl, (by decide : Sys2Proof.operandCount 0x01 = 1)⟩
theorem Sys2Proof.Laws.Length.jam02 :
    Sys2Proof.Laws.Length.Statement .jam02 :=
  ⟨rfl, (by decide : Sys2Proof.operandCount 0x02 = 0)⟩
theorem Sys2Proof.Laws.Length.sloIzx (z : Sys2Proof.Byte) :
    Sys2Proof.Laws.Length.Statement (.sloIzx z) :=
  ⟨rfl, (by decide : Sys2Proof.operandCount 0x03 = 1)⟩
theorem Sys2Proof.Laws.Length.nopZp04 (z : Sys2Proof.Byte) :
    Sys2Proof.Laws.Length.Statement (.nopZp04 z) :=
  ⟨rfl, (by decide : Sys2Proof.operandCount 0x04 = 1)⟩
theorem Sys2Proof.Laws.Length.oraZp (z : Sys2Proof.Byte) :
    Sys2Proof.Laws.Length.Statement (.oraZp z) :=
  ⟨rfl, (by decide : Sys2Proof.operandCount 0x05 = 1)⟩
theorem Sys2Proof.Laws.Length.aslZp (z : Sys2Proof.Byte) :
    Sys2Proof.Laws.Length.Statement (.aslZp z) :=
  ⟨rfl, (by decide : Sys2Proof.operandCount 0x06 = 1)⟩
theorem Sys2Proof.Laws.Length.sloZp (z : Sys2Proof.Byte) :
    Sys2Proof.Laws.Length.Statement (.sloZp z) :=
  ⟨rfl, (by decide : Sys2Proof.operandCount 0x07 = 1)⟩
theorem Sys2Proof.Laws.Length.php :
    Sys2Proof.Laws.Length.Statement .php :=
  ⟨rfl, (by decide : Sys2Proof.operandCount 0x08 = 0)⟩
theorem Sys2Proof.Laws.Length.oraImm (v : Sys2Proof.Byte) :
    Sys2Proof.Laws.Length.Statement (.oraImm v) :=
  ⟨rfl, (by decide : Sys2Proof.operandCount 0x09 = 1)⟩
theorem Sys2Proof.Laws.Length.aslAcc :
    Sys2Proof.Laws.Length.Statement .aslAcc :=
  ⟨rfl, (by decide : Sys2Proof.operandCount 0x0A = 0)⟩
theorem Sys2Proof.Laws.Length.ancImm0B (v : Sys2Proof.Byte) :
    Sys2Proof.Laws.Length.Statement (.ancImm0B v) :=
  ⟨rfl, (by decide : Sys2Proof.operandCount 0x0B = 1)⟩
theorem Sys2Proof.Laws.Length.nopAbs (lo hi : Sys2Proof.Byte) :
    Sys2Proof.Laws.Length.Statement (.nopAbs lo hi) :=
  ⟨rfl, (by decide : Sys2Proof.operandCount 0x0C = 2)⟩
theorem Sys2Proof.Laws.Length.oraAbs (lo hi : Sys2Proof.Byte) :
    Sys2Proof.Laws.Length.Statement (.oraAbs lo hi) :=
  ⟨rfl, (by decide : Sys2Proof.operandCount 0x0D = 2)⟩
theorem Sys2Proof.Laws.Length.aslAbs (lo hi : Sys2Proof.Byte) :
    Sys2Proof.Laws.Length.Statement (.aslAbs lo hi) :=
  ⟨rfl, (by decide : Sys2Proof.operandCount 0x0E = 2)⟩
theorem Sys2Proof.Laws.Length.sloAbs (lo hi : Sys2Proof.Byte) :
    Sys2Proof.Laws.Length.Statement (.sloAbs lo hi) :=
  ⟨rfl, (by decide : Sys2Proof.operandCount 0x0F = 2)⟩
theorem Sys2Proof.Laws.Length.bpl (off : Sys2Proof.Byte) :
    Sys2Proof.Laws.Length.Statement (.bpl off) :=
  ⟨rfl, (by decide : Sys2Proof.operandCount 0x10 = 1)⟩
theorem Sys2Proof.Laws.Length.oraIzy (z : Sys2Proof.Byte) :
    Sys2Proof.Laws.Length.Statement (.oraIzy z) :=
  ⟨rfl, (by decide : Sys2Proof.operandCount 0x11 = 1)⟩
theorem Sys2Proof.Laws.Length.jam12 :
    Sys2Proof.Laws.Length.Statement .jam12 :=
  ⟨rfl, (by decide : Sys2Proof.operandCount 0x12 = 0)⟩
theorem Sys2Proof.Laws.Length.sloIzy (z : Sys2Proof.Byte) :
    Sys2Proof.Laws.Length.Statement (.sloIzy z) :=
  ⟨rfl, (by decide : Sys2Proof.operandCount 0x13 = 1)⟩
theorem Sys2Proof.Laws.Length.nopZpx14 (z : Sys2Proof.Byte) :
    Sys2Proof.Laws.Length.Statement (.nopZpx14 z) :=
  ⟨rfl, (by decide : Sys2Proof.operandCount 0x14 = 1)⟩
theorem Sys2Proof.Laws.Length.oraZpx (z : Sys2Proof.Byte) :
    Sys2Proof.Laws.Length.Statement (.oraZpx z) :=
  ⟨rfl, (by decide : Sys2Proof.operandCount 0x15 = 1)⟩
theorem Sys2Proof.Laws.Length.aslZpx (z : Sys2Proof.Byte) :
    Sys2Proof.Laws.Length.Statement (.aslZpx z) :=
  ⟨rfl, (by decide : Sys2Proof.operandCount 0x16 = 1)⟩
theorem Sys2Proof.Laws.Length.sloZpx (z : Sys2Proof.Byte) :
    Sys2Proof.Laws.Length.Statement (.sloZpx z) :=
  ⟨rfl, (by decide : Sys2Proof.operandCount 0x17 = 1)⟩
theorem Sys2Proof.Laws.Length.clc :
    Sys2Proof.Laws.Length.Statement .clc :=
  ⟨rfl, (by decide : Sys2Proof.operandCount 0x18 = 0)⟩
theorem Sys2Proof.Laws.Length.oraAby (lo hi : Sys2Proof.Byte) :
    Sys2Proof.Laws.Length.Statement (.oraAby lo hi) :=
  ⟨rfl, (by decide : Sys2Proof.operandCount 0x19 = 2)⟩
theorem Sys2Proof.Laws.Length.nop1A :
    Sys2Proof.Laws.Length.Statement .nop1A :=
  ⟨rfl, (by decide : Sys2Proof.operandCount 0x1A = 0)⟩
theorem Sys2Proof.Laws.Length.sloAby (lo hi : Sys2Proof.Byte) :
    Sys2Proof.Laws.Length.Statement (.sloAby lo hi) :=
  ⟨rfl, (by decide : Sys2Proof.operandCount 0x1B = 2)⟩
theorem Sys2Proof.Laws.Length.nopAbx1C (lo hi : Sys2Proof.Byte) :
    Sys2Proof.Laws.Length.Statement (.nopAbx1C lo hi) :=
  ⟨rfl, (by decide : Sys2Proof.operandCount 0x1C = 2)⟩
theorem Sys2Proof.Laws.Length.oraAbx (lo hi : Sys2Proof.Byte) :
    Sys2Proof.Laws.Length.Statement (.oraAbx lo hi) :=
  ⟨rfl, (by decide : Sys2Proof.operandCount 0x1D = 2)⟩
theorem Sys2Proof.Laws.Length.aslAbx (lo hi : Sys2Proof.Byte) :
    Sys2Proof.Laws.Length.Statement (.aslAbx lo hi) :=
  ⟨rfl, (by decide : Sys2Proof.operandCount 0x1E = 2)⟩
theorem Sys2Proof.Laws.Length.sloAbx (lo hi : Sys2Proof.Byte) :
    Sys2Proof.Laws.Length.Statement (.sloAbx lo hi) :=
  ⟨rfl, (by decide : Sys2Proof.operandCount 0x1F = 2)⟩
theorem Sys2Proof.Laws.Length.jsr (lo hi : Sys2Proof.Byte) :
    Sys2Proof.Laws.Length.Statement (.jsr lo hi) :=
  ⟨rfl, (by decide : Sys2Proof.operandCount 0x20 = 2)⟩
theorem Sys2Proof.Laws.Length.andIzx (z : Sys2Proof.Byte) :
    Sys2Proof.Laws.Length.Statement (.andIzx z) :=
  ⟨rfl, (by decide : Sys2Proof.operandCount 0x21 = 1)⟩
theorem Sys2Proof.Laws.Length.jam22 :
    Sys2Proof.Laws.Length.Statement .jam22 :=
  ⟨rfl, (by decide : Sys2Proof.operandCount 0x22 = 0)⟩
theorem Sys2Proof.Laws.Length.rlaIzx (z : Sys2Proof.Byte) :
    Sys2Proof.Laws.Length.Statement (.rlaIzx z) :=
  ⟨rfl, (by decide : Sys2Proof.operandCount 0x23 = 1)⟩
theorem Sys2Proof.Laws.Length.bitZp (z : Sys2Proof.Byte) :
    Sys2Proof.Laws.Length.Statement (.bitZp z) :=
  ⟨rfl, (by decide : Sys2Proof.operandCount 0x24 = 1)⟩
theorem Sys2Proof.Laws.Length.andZp (z : Sys2Proof.Byte) :
    Sys2Proof.Laws.Length.Statement (.andZp z) :=
  ⟨rfl, (by decide : Sys2Proof.operandCount 0x25 = 1)⟩
theorem Sys2Proof.Laws.Length.rolZp (z : Sys2Proof.Byte) :
    Sys2Proof.Laws.Length.Statement (.rolZp z) :=
  ⟨rfl, (by decide : Sys2Proof.operandCount 0x26 = 1)⟩
theorem Sys2Proof.Laws.Length.rlaZp (z : Sys2Proof.Byte) :
    Sys2Proof.Laws.Length.Statement (.rlaZp z) :=
  ⟨rfl, (by decide : Sys2Proof.operandCount 0x27 = 1)⟩
theorem Sys2Proof.Laws.Length.plp :
    Sys2Proof.Laws.Length.Statement .plp :=
  ⟨rfl, (by decide : Sys2Proof.operandCount 0x28 = 0)⟩
theorem Sys2Proof.Laws.Length.andImm (v : Sys2Proof.Byte) :
    Sys2Proof.Laws.Length.Statement (.andImm v) :=
  ⟨rfl, (by decide : Sys2Proof.operandCount 0x29 = 1)⟩
theorem Sys2Proof.Laws.Length.rolAcc :
    Sys2Proof.Laws.Length.Statement .rolAcc :=
  ⟨rfl, (by decide : Sys2Proof.operandCount 0x2A = 0)⟩
theorem Sys2Proof.Laws.Length.ancImm2B (v : Sys2Proof.Byte) :
    Sys2Proof.Laws.Length.Statement (.ancImm2B v) :=
  ⟨rfl, (by decide : Sys2Proof.operandCount 0x2B = 1)⟩
theorem Sys2Proof.Laws.Length.bitAbs (lo hi : Sys2Proof.Byte) :
    Sys2Proof.Laws.Length.Statement (.bitAbs lo hi) :=
  ⟨rfl, (by decide : Sys2Proof.operandCount 0x2C = 2)⟩
theorem Sys2Proof.Laws.Length.andAbs (lo hi : Sys2Proof.Byte) :
    Sys2Proof.Laws.Length.Statement (.andAbs lo hi) :=
  ⟨rfl, (by decide : Sys2Proof.operandCount 0x2D = 2)⟩
theorem Sys2Proof.Laws.Length.rolAbs (lo hi : Sys2Proof.Byte) :
    Sys2Proof.Laws.Length.Statement (.rolAbs lo hi) :=
  ⟨rfl, (by decide : Sys2Proof.operandCount 0x2E = 2)⟩
theorem Sys2Proof.Laws.Length.rlaAbs (lo hi : Sys2Proof.Byte) :
    Sys2Proof.Laws.Length.Statement (.rlaAbs lo hi) :=
  ⟨rfl, (by decide : Sys2Proof.operandCount 0x2F = 2)⟩
theorem Sys2Proof.Laws.Length.bmi (off : Sys2Proof.Byte) :
    Sys2Proof.Laws.Length.Statement (.bmi off) :=
  ⟨rfl, (by decide : Sys2Proof.operandCount 0x30 = 1)⟩
theorem Sys2Proof.Laws.Length.andIzy (z : Sys2Proof.Byte) :
    Sys2Proof.Laws.Length.Statement (.andIzy z) :=
  ⟨rfl, (by decide : Sys2Proof.operandCount 0x31 = 1)⟩
theorem Sys2Proof.Laws.Length.jam32 :
    Sys2Proof.Laws.Length.Statement .jam32 :=
  ⟨rfl, (by decide : Sys2Proof.operandCount 0x32 = 0)⟩
theorem Sys2Proof.Laws.Length.rlaIzy (z : Sys2Proof.Byte) :
    Sys2Proof.Laws.Length.Statement (.rlaIzy z) :=
  ⟨rfl, (by decide : Sys2Proof.operandCount 0x33 = 1)⟩
theorem Sys2Proof.Laws.Length.nopZpx34 (z : Sys2Proof.Byte) :
    Sys2Proof.Laws.Length.Statement (.nopZpx34 z) :=
  ⟨rfl, (by decide : Sys2Proof.operandCount 0x34 = 1)⟩
theorem Sys2Proof.Laws.Length.andZpx (z : Sys2Proof.Byte) :
    Sys2Proof.Laws.Length.Statement (.andZpx z) :=
  ⟨rfl, (by decide : Sys2Proof.operandCount 0x35 = 1)⟩
theorem Sys2Proof.Laws.Length.rolZpx (z : Sys2Proof.Byte) :
    Sys2Proof.Laws.Length.Statement (.rolZpx z) :=
  ⟨rfl, (by decide : Sys2Proof.operandCount 0x36 = 1)⟩
theorem Sys2Proof.Laws.Length.rlaZpx (z : Sys2Proof.Byte) :
    Sys2Proof.Laws.Length.Statement (.rlaZpx z) :=
  ⟨rfl, (by decide : Sys2Proof.operandCount 0x37 = 1)⟩
theorem Sys2Proof.Laws.Length.sec :
    Sys2Proof.Laws.Length.Statement .sec :=
  ⟨rfl, (by decide : Sys2Proof.operandCount 0x38 = 0)⟩
theorem Sys2Proof.Laws.Length.andAby (lo hi : Sys2Proof.Byte) :
    Sys2Proof.Laws.Length.Statement (.andAby lo hi) :=
  ⟨rfl, (by decide : Sys2Proof.operandCount 0x39 = 2)⟩
theorem Sys2Proof.Laws.Length.nop3A :
    Sys2Proof.Laws.Length.Statement .nop3A :=
  ⟨rfl, (by decide : Sys2Proof.operandCount 0x3A = 0)⟩
theorem Sys2Proof.Laws.Length.rlaAby (lo hi : Sys2Proof.Byte) :
    Sys2Proof.Laws.Length.Statement (.rlaAby lo hi) :=
  ⟨rfl, (by decide : Sys2Proof.operandCount 0x3B = 2)⟩
theorem Sys2Proof.Laws.Length.nopAbx3C (lo hi : Sys2Proof.Byte) :
    Sys2Proof.Laws.Length.Statement (.nopAbx3C lo hi) :=
  ⟨rfl, (by decide : Sys2Proof.operandCount 0x3C = 2)⟩
theorem Sys2Proof.Laws.Length.andAbx (lo hi : Sys2Proof.Byte) :
    Sys2Proof.Laws.Length.Statement (.andAbx lo hi) :=
  ⟨rfl, (by decide : Sys2Proof.operandCount 0x3D = 2)⟩
theorem Sys2Proof.Laws.Length.rolAbx (lo hi : Sys2Proof.Byte) :
    Sys2Proof.Laws.Length.Statement (.rolAbx lo hi) :=
  ⟨rfl, (by decide : Sys2Proof.operandCount 0x3E = 2)⟩
theorem Sys2Proof.Laws.Length.rlaAbx (lo hi : Sys2Proof.Byte) :
    Sys2Proof.Laws.Length.Statement (.rlaAbx lo hi) :=
  ⟨rfl, (by decide : Sys2Proof.operandCount 0x3F = 2)⟩
theorem Sys2Proof.Laws.Length.rti :
    Sys2Proof.Laws.Length.Statement .rti :=
  ⟨rfl, (by decide : Sys2Proof.operandCount 0x40 = 0)⟩
theorem Sys2Proof.Laws.Length.eorIzx (z : Sys2Proof.Byte) :
    Sys2Proof.Laws.Length.Statement (.eorIzx z) :=
  ⟨rfl, (by decide : Sys2Proof.operandCount 0x41 = 1)⟩
theorem Sys2Proof.Laws.Length.jam42 :
    Sys2Proof.Laws.Length.Statement .jam42 :=
  ⟨rfl, (by decide : Sys2Proof.operandCount 0x42 = 0)⟩
theorem Sys2Proof.Laws.Length.sreIzx (z : Sys2Proof.Byte) :
    Sys2Proof.Laws.Length.Statement (.sreIzx z) :=
  ⟨rfl, (by decide : Sys2Proof.operandCount 0x43 = 1)⟩
theorem Sys2Proof.Laws.Length.nopZp44 (z : Sys2Proof.Byte) :
    Sys2Proof.Laws.Length.Statement (.nopZp44 z) :=
  ⟨rfl, (by decide : Sys2Proof.operandCount 0x44 = 1)⟩
theorem Sys2Proof.Laws.Length.eorZp (z : Sys2Proof.Byte) :
    Sys2Proof.Laws.Length.Statement (.eorZp z) :=
  ⟨rfl, (by decide : Sys2Proof.operandCount 0x45 = 1)⟩
theorem Sys2Proof.Laws.Length.lsrZp (z : Sys2Proof.Byte) :
    Sys2Proof.Laws.Length.Statement (.lsrZp z) :=
  ⟨rfl, (by decide : Sys2Proof.operandCount 0x46 = 1)⟩
theorem Sys2Proof.Laws.Length.sreZp (z : Sys2Proof.Byte) :
    Sys2Proof.Laws.Length.Statement (.sreZp z) :=
  ⟨rfl, (by decide : Sys2Proof.operandCount 0x47 = 1)⟩
theorem Sys2Proof.Laws.Length.pha :
    Sys2Proof.Laws.Length.Statement .pha :=
  ⟨rfl, (by decide : Sys2Proof.operandCount 0x48 = 0)⟩
theorem Sys2Proof.Laws.Length.eorImm (v : Sys2Proof.Byte) :
    Sys2Proof.Laws.Length.Statement (.eorImm v) :=
  ⟨rfl, (by decide : Sys2Proof.operandCount 0x49 = 1)⟩
theorem Sys2Proof.Laws.Length.lsrAcc :
    Sys2Proof.Laws.Length.Statement .lsrAcc :=
  ⟨rfl, (by decide : Sys2Proof.operandCount 0x4A = 0)⟩
theorem Sys2Proof.Laws.Length.alrImm (v : Sys2Proof.Byte) :
    Sys2Proof.Laws.Length.Statement (.alrImm v) :=
  ⟨rfl, (by decide : Sys2Proof.operandCount 0x4B = 1)⟩
theorem Sys2Proof.Laws.Length.jmpAbs (lo hi : Sys2Proof.Byte) :
    Sys2Proof.Laws.Length.Statement (.jmpAbs lo hi) :=
  ⟨rfl, (by decide : Sys2Proof.operandCount 0x4C = 2)⟩
theorem Sys2Proof.Laws.Length.eorAbs (lo hi : Sys2Proof.Byte) :
    Sys2Proof.Laws.Length.Statement (.eorAbs lo hi) :=
  ⟨rfl, (by decide : Sys2Proof.operandCount 0x4D = 2)⟩
theorem Sys2Proof.Laws.Length.lsrAbs (lo hi : Sys2Proof.Byte) :
    Sys2Proof.Laws.Length.Statement (.lsrAbs lo hi) :=
  ⟨rfl, (by decide : Sys2Proof.operandCount 0x4E = 2)⟩
theorem Sys2Proof.Laws.Length.sreAbs (lo hi : Sys2Proof.Byte) :
    Sys2Proof.Laws.Length.Statement (.sreAbs lo hi) :=
  ⟨rfl, (by decide : Sys2Proof.operandCount 0x4F = 2)⟩
theorem Sys2Proof.Laws.Length.bvc (off : Sys2Proof.Byte) :
    Sys2Proof.Laws.Length.Statement (.bvc off) :=
  ⟨rfl, (by decide : Sys2Proof.operandCount 0x50 = 1)⟩
theorem Sys2Proof.Laws.Length.eorIzy (z : Sys2Proof.Byte) :
    Sys2Proof.Laws.Length.Statement (.eorIzy z) :=
  ⟨rfl, (by decide : Sys2Proof.operandCount 0x51 = 1)⟩
theorem Sys2Proof.Laws.Length.jam52 :
    Sys2Proof.Laws.Length.Statement .jam52 :=
  ⟨rfl, (by decide : Sys2Proof.operandCount 0x52 = 0)⟩
theorem Sys2Proof.Laws.Length.sreIzy (z : Sys2Proof.Byte) :
    Sys2Proof.Laws.Length.Statement (.sreIzy z) :=
  ⟨rfl, (by decide : Sys2Proof.operandCount 0x53 = 1)⟩
theorem Sys2Proof.Laws.Length.nopZpx54 (z : Sys2Proof.Byte) :
    Sys2Proof.Laws.Length.Statement (.nopZpx54 z) :=
  ⟨rfl, (by decide : Sys2Proof.operandCount 0x54 = 1)⟩
theorem Sys2Proof.Laws.Length.eorZpx (z : Sys2Proof.Byte) :
    Sys2Proof.Laws.Length.Statement (.eorZpx z) :=
  ⟨rfl, (by decide : Sys2Proof.operandCount 0x55 = 1)⟩
theorem Sys2Proof.Laws.Length.lsrZpx (z : Sys2Proof.Byte) :
    Sys2Proof.Laws.Length.Statement (.lsrZpx z) :=
  ⟨rfl, (by decide : Sys2Proof.operandCount 0x56 = 1)⟩
theorem Sys2Proof.Laws.Length.sreZpx (z : Sys2Proof.Byte) :
    Sys2Proof.Laws.Length.Statement (.sreZpx z) :=
  ⟨rfl, (by decide : Sys2Proof.operandCount 0x57 = 1)⟩
theorem Sys2Proof.Laws.Length.cli :
    Sys2Proof.Laws.Length.Statement .cli :=
  ⟨rfl, (by decide : Sys2Proof.operandCount 0x58 = 0)⟩
theorem Sys2Proof.Laws.Length.eorAby (lo hi : Sys2Proof.Byte) :
    Sys2Proof.Laws.Length.Statement (.eorAby lo hi) :=
  ⟨rfl, (by decide : Sys2Proof.operandCount 0x59 = 2)⟩
theorem Sys2Proof.Laws.Length.nop5A :
    Sys2Proof.Laws.Length.Statement .nop5A :=
  ⟨rfl, (by decide : Sys2Proof.operandCount 0x5A = 0)⟩
theorem Sys2Proof.Laws.Length.sreAby (lo hi : Sys2Proof.Byte) :
    Sys2Proof.Laws.Length.Statement (.sreAby lo hi) :=
  ⟨rfl, (by decide : Sys2Proof.operandCount 0x5B = 2)⟩
theorem Sys2Proof.Laws.Length.nopAbx5C (lo hi : Sys2Proof.Byte) :
    Sys2Proof.Laws.Length.Statement (.nopAbx5C lo hi) :=
  ⟨rfl, (by decide : Sys2Proof.operandCount 0x5C = 2)⟩
theorem Sys2Proof.Laws.Length.eorAbx (lo hi : Sys2Proof.Byte) :
    Sys2Proof.Laws.Length.Statement (.eorAbx lo hi) :=
  ⟨rfl, (by decide : Sys2Proof.operandCount 0x5D = 2)⟩
theorem Sys2Proof.Laws.Length.lsrAbx (lo hi : Sys2Proof.Byte) :
    Sys2Proof.Laws.Length.Statement (.lsrAbx lo hi) :=
  ⟨rfl, (by decide : Sys2Proof.operandCount 0x5E = 2)⟩
theorem Sys2Proof.Laws.Length.sreAbx (lo hi : Sys2Proof.Byte) :
    Sys2Proof.Laws.Length.Statement (.sreAbx lo hi) :=
  ⟨rfl, (by decide : Sys2Proof.operandCount 0x5F = 2)⟩
theorem Sys2Proof.Laws.Length.rts :
    Sys2Proof.Laws.Length.Statement .rts :=
  ⟨rfl, (by decide : Sys2Proof.operandCount 0x60 = 0)⟩
theorem Sys2Proof.Laws.Length.adcIzx (z : Sys2Proof.Byte) :
    Sys2Proof.Laws.Length.Statement (.adcIzx z) :=
  ⟨rfl, (by decide : Sys2Proof.operandCount 0x61 = 1)⟩
theorem Sys2Proof.Laws.Length.jam62 :
    Sys2Proof.Laws.Length.Statement .jam62 :=
  ⟨rfl, (by decide : Sys2Proof.operandCount 0x62 = 0)⟩
theorem Sys2Proof.Laws.Length.rraIzx (z : Sys2Proof.Byte) :
    Sys2Proof.Laws.Length.Statement (.rraIzx z) :=
  ⟨rfl, (by decide : Sys2Proof.operandCount 0x63 = 1)⟩
theorem Sys2Proof.Laws.Length.nopZp64 (z : Sys2Proof.Byte) :
    Sys2Proof.Laws.Length.Statement (.nopZp64 z) :=
  ⟨rfl, (by decide : Sys2Proof.operandCount 0x64 = 1)⟩
theorem Sys2Proof.Laws.Length.adcZp (z : Sys2Proof.Byte) :
    Sys2Proof.Laws.Length.Statement (.adcZp z) :=
  ⟨rfl, (by decide : Sys2Proof.operandCount 0x65 = 1)⟩
theorem Sys2Proof.Laws.Length.rorZp (z : Sys2Proof.Byte) :
    Sys2Proof.Laws.Length.Statement (.rorZp z) :=
  ⟨rfl, (by decide : Sys2Proof.operandCount 0x66 = 1)⟩
theorem Sys2Proof.Laws.Length.rraZp (z : Sys2Proof.Byte) :
    Sys2Proof.Laws.Length.Statement (.rraZp z) :=
  ⟨rfl, (by decide : Sys2Proof.operandCount 0x67 = 1)⟩
theorem Sys2Proof.Laws.Length.pla :
    Sys2Proof.Laws.Length.Statement .pla :=
  ⟨rfl, (by decide : Sys2Proof.operandCount 0x68 = 0)⟩
theorem Sys2Proof.Laws.Length.adcImm (v : Sys2Proof.Byte) :
    Sys2Proof.Laws.Length.Statement (.adcImm v) :=
  ⟨rfl, (by decide : Sys2Proof.operandCount 0x69 = 1)⟩
theorem Sys2Proof.Laws.Length.rorAcc :
    Sys2Proof.Laws.Length.Statement .rorAcc :=
  ⟨rfl, (by decide : Sys2Proof.operandCount 0x6A = 0)⟩
theorem Sys2Proof.Laws.Length.arrImm (v : Sys2Proof.Byte) :
    Sys2Proof.Laws.Length.Statement (.arrImm v) :=
  ⟨rfl, (by decide : Sys2Proof.operandCount 0x6B = 1)⟩
theorem Sys2Proof.Laws.Length.jmpInd (lo hi : Sys2Proof.Byte) :
    Sys2Proof.Laws.Length.Statement (.jmpInd lo hi) :=
  ⟨rfl, (by decide : Sys2Proof.operandCount 0x6C = 2)⟩
theorem Sys2Proof.Laws.Length.adcAbs (lo hi : Sys2Proof.Byte) :
    Sys2Proof.Laws.Length.Statement (.adcAbs lo hi) :=
  ⟨rfl, (by decide : Sys2Proof.operandCount 0x6D = 2)⟩
theorem Sys2Proof.Laws.Length.rorAbs (lo hi : Sys2Proof.Byte) :
    Sys2Proof.Laws.Length.Statement (.rorAbs lo hi) :=
  ⟨rfl, (by decide : Sys2Proof.operandCount 0x6E = 2)⟩
theorem Sys2Proof.Laws.Length.rraAbs (lo hi : Sys2Proof.Byte) :
    Sys2Proof.Laws.Length.Statement (.rraAbs lo hi) :=
  ⟨rfl, (by decide : Sys2Proof.operandCount 0x6F = 2)⟩
theorem Sys2Proof.Laws.Length.bvs (off : Sys2Proof.Byte) :
    Sys2Proof.Laws.Length.Statement (.bvs off) :=
  ⟨rfl, (by decide : Sys2Proof.operandCount 0x70 = 1)⟩
theorem Sys2Proof.Laws.Length.adcIzy (z : Sys2Proof.Byte) :
    Sys2Proof.Laws.Length.Statement (.adcIzy z) :=
  ⟨rfl, (by decide : Sys2Proof.operandCount 0x71 = 1)⟩
theorem Sys2Proof.Laws.Length.jam72 :
    Sys2Proof.Laws.Length.Statement .jam72 :=
  ⟨rfl, (by decide : Sys2Proof.operandCount 0x72 = 0)⟩
theorem Sys2Proof.Laws.Length.rraIzy (z : Sys2Proof.Byte) :
    Sys2Proof.Laws.Length.Statement (.rraIzy z) :=
  ⟨rfl, (by decide : Sys2Proof.operandCount 0x73 = 1)⟩
theorem Sys2Proof.Laws.Length.nopZpx74 (z : Sys2Proof.Byte) :
    Sys2Proof.Laws.Length.Statement (.nopZpx74 z) :=
  ⟨rfl, (by decide : Sys2Proof.operandCount 0x74 = 1)⟩
theorem Sys2Proof.Laws.Length.adcZpx (z : Sys2Proof.Byte) :
    Sys2Proof.Laws.Length.Statement (.adcZpx z) :=
  ⟨rfl, (by decide : Sys2Proof.operandCount 0x75 = 1)⟩
theorem Sys2Proof.Laws.Length.rorZpx (z : Sys2Proof.Byte) :
    Sys2Proof.Laws.Length.Statement (.rorZpx z) :=
  ⟨rfl, (by decide : Sys2Proof.operandCount 0x76 = 1)⟩
theorem Sys2Proof.Laws.Length.rraZpx (z : Sys2Proof.Byte) :
    Sys2Proof.Laws.Length.Statement (.rraZpx z) :=
  ⟨rfl, (by decide : Sys2Proof.operandCount 0x77 = 1)⟩
theorem Sys2Proof.Laws.Length.sei :
    Sys2Proof.Laws.Length.Statement .sei :=
  ⟨rfl, (by decide : Sys2Proof.operandCount 0x78 = 0)⟩
theorem Sys2Proof.Laws.Length.adcAby (lo hi : Sys2Proof.Byte) :
    Sys2Proof.Laws.Length.Statement (.adcAby lo hi) :=
  ⟨rfl, (by decide : Sys2Proof.operandCount 0x79 = 2)⟩
theorem Sys2Proof.Laws.Length.nop7A :
    Sys2Proof.Laws.Length.Statement .nop7A :=
  ⟨rfl, (by decide : Sys2Proof.operandCount 0x7A = 0)⟩
theorem Sys2Proof.Laws.Length.rraAby (lo hi : Sys2Proof.Byte) :
    Sys2Proof.Laws.Length.Statement (.rraAby lo hi) :=
  ⟨rfl, (by decide : Sys2Proof.operandCount 0x7B = 2)⟩
theorem Sys2Proof.Laws.Length.nopAbx7C (lo hi : Sys2Proof.Byte) :
    Sys2Proof.Laws.Length.Statement (.nopAbx7C lo hi) :=
  ⟨rfl, (by decide : Sys2Proof.operandCount 0x7C = 2)⟩
theorem Sys2Proof.Laws.Length.adcAbx (lo hi : Sys2Proof.Byte) :
    Sys2Proof.Laws.Length.Statement (.adcAbx lo hi) :=
  ⟨rfl, (by decide : Sys2Proof.operandCount 0x7D = 2)⟩
theorem Sys2Proof.Laws.Length.rorAbx (lo hi : Sys2Proof.Byte) :
    Sys2Proof.Laws.Length.Statement (.rorAbx lo hi) :=
  ⟨rfl, (by decide : Sys2Proof.operandCount 0x7E = 2)⟩
theorem Sys2Proof.Laws.Length.rraAbx (lo hi : Sys2Proof.Byte) :
    Sys2Proof.Laws.Length.Statement (.rraAbx lo hi) :=
  ⟨rfl, (by decide : Sys2Proof.operandCount 0x7F = 2)⟩
theorem Sys2Proof.Laws.Length.nopImm80 (v : Sys2Proof.Byte) :
    Sys2Proof.Laws.Length.Statement (.nopImm80 v) :=
  ⟨rfl, (by decide : Sys2Proof.operandCount 0x80 = 1)⟩
theorem Sys2Proof.Laws.Length.staIzx (z : Sys2Proof.Byte) :
    Sys2Proof.Laws.Length.Statement (.staIzx z) :=
  ⟨rfl, (by decide : Sys2Proof.operandCount 0x81 = 1)⟩
theorem Sys2Proof.Laws.Length.nopImm82 (v : Sys2Proof.Byte) :
    Sys2Proof.Laws.Length.Statement (.nopImm82 v) :=
  ⟨rfl, (by decide : Sys2Proof.operandCount 0x82 = 1)⟩
theorem Sys2Proof.Laws.Length.saxIzx (z : Sys2Proof.Byte) :
    Sys2Proof.Laws.Length.Statement (.saxIzx z) :=
  ⟨rfl, (by decide : Sys2Proof.operandCount 0x83 = 1)⟩
theorem Sys2Proof.Laws.Length.styZp (z : Sys2Proof.Byte) :
    Sys2Proof.Laws.Length.Statement (.styZp z) :=
  ⟨rfl, (by decide : Sys2Proof.operandCount 0x84 = 1)⟩
theorem Sys2Proof.Laws.Length.staZp (z : Sys2Proof.Byte) :
    Sys2Proof.Laws.Length.Statement (.staZp z) :=
  ⟨rfl, (by decide : Sys2Proof.operandCount 0x85 = 1)⟩
theorem Sys2Proof.Laws.Length.stxZp (z : Sys2Proof.Byte) :
    Sys2Proof.Laws.Length.Statement (.stxZp z) :=
  ⟨rfl, (by decide : Sys2Proof.operandCount 0x86 = 1)⟩
theorem Sys2Proof.Laws.Length.saxZp (z : Sys2Proof.Byte) :
    Sys2Proof.Laws.Length.Statement (.saxZp z) :=
  ⟨rfl, (by decide : Sys2Proof.operandCount 0x87 = 1)⟩
theorem Sys2Proof.Laws.Length.dey :
    Sys2Proof.Laws.Length.Statement .dey :=
  ⟨rfl, (by decide : Sys2Proof.operandCount 0x88 = 0)⟩
theorem Sys2Proof.Laws.Length.nopImm89 (v : Sys2Proof.Byte) :
    Sys2Proof.Laws.Length.Statement (.nopImm89 v) :=
  ⟨rfl, (by decide : Sys2Proof.operandCount 0x89 = 1)⟩
theorem Sys2Proof.Laws.Length.txa :
    Sys2Proof.Laws.Length.Statement .txa :=
  ⟨rfl, (by decide : Sys2Proof.operandCount 0x8A = 0)⟩
theorem Sys2Proof.Laws.Length.aneImm (v : Sys2Proof.Byte) :
    Sys2Proof.Laws.Length.Statement (.aneImm v) :=
  ⟨rfl, (by decide : Sys2Proof.operandCount 0x8B = 1)⟩
theorem Sys2Proof.Laws.Length.styAbs (lo hi : Sys2Proof.Byte) :
    Sys2Proof.Laws.Length.Statement (.styAbs lo hi) :=
  ⟨rfl, (by decide : Sys2Proof.operandCount 0x8C = 2)⟩
theorem Sys2Proof.Laws.Length.staAbs (lo hi : Sys2Proof.Byte) :
    Sys2Proof.Laws.Length.Statement (.staAbs lo hi) :=
  ⟨rfl, (by decide : Sys2Proof.operandCount 0x8D = 2)⟩
theorem Sys2Proof.Laws.Length.stxAbs (lo hi : Sys2Proof.Byte) :
    Sys2Proof.Laws.Length.Statement (.stxAbs lo hi) :=
  ⟨rfl, (by decide : Sys2Proof.operandCount 0x8E = 2)⟩
theorem Sys2Proof.Laws.Length.saxAbs (lo hi : Sys2Proof.Byte) :
    Sys2Proof.Laws.Length.Statement (.saxAbs lo hi) :=
  ⟨rfl, (by decide : Sys2Proof.operandCount 0x8F = 2)⟩
theorem Sys2Proof.Laws.Length.bcc (off : Sys2Proof.Byte) :
    Sys2Proof.Laws.Length.Statement (.bcc off) :=
  ⟨rfl, (by decide : Sys2Proof.operandCount 0x90 = 1)⟩
theorem Sys2Proof.Laws.Length.staIzy (z : Sys2Proof.Byte) :
    Sys2Proof.Laws.Length.Statement (.staIzy z) :=
  ⟨rfl, (by decide : Sys2Proof.operandCount 0x91 = 1)⟩
theorem Sys2Proof.Laws.Length.jam92 :
    Sys2Proof.Laws.Length.Statement .jam92 :=
  ⟨rfl, (by decide : Sys2Proof.operandCount 0x92 = 0)⟩
theorem Sys2Proof.Laws.Length.shaIzy (z : Sys2Proof.Byte) :
    Sys2Proof.Laws.Length.Statement (.shaIzy z) :=
  ⟨rfl, (by decide : Sys2Proof.operandCount 0x93 = 1)⟩
theorem Sys2Proof.Laws.Length.styZpx (z : Sys2Proof.Byte) :
    Sys2Proof.Laws.Length.Statement (.styZpx z) :=
  ⟨rfl, (by decide : Sys2Proof.operandCount 0x94 = 1)⟩
theorem Sys2Proof.Laws.Length.staZpx (z : Sys2Proof.Byte) :
    Sys2Proof.Laws.Length.Statement (.staZpx z) :=
  ⟨rfl, (by decide : Sys2Proof.operandCount 0x95 = 1)⟩
theorem Sys2Proof.Laws.Length.stxZpy (z : Sys2Proof.Byte) :
    Sys2Proof.Laws.Length.Statement (.stxZpy z) :=
  ⟨rfl, (by decide : Sys2Proof.operandCount 0x96 = 1)⟩
theorem Sys2Proof.Laws.Length.saxZpy (z : Sys2Proof.Byte) :
    Sys2Proof.Laws.Length.Statement (.saxZpy z) :=
  ⟨rfl, (by decide : Sys2Proof.operandCount 0x97 = 1)⟩
theorem Sys2Proof.Laws.Length.tya :
    Sys2Proof.Laws.Length.Statement .tya :=
  ⟨rfl, (by decide : Sys2Proof.operandCount 0x98 = 0)⟩
theorem Sys2Proof.Laws.Length.staAby (lo hi : Sys2Proof.Byte) :
    Sys2Proof.Laws.Length.Statement (.staAby lo hi) :=
  ⟨rfl, (by decide : Sys2Proof.operandCount 0x99 = 2)⟩
theorem Sys2Proof.Laws.Length.txs :
    Sys2Proof.Laws.Length.Statement .txs :=
  ⟨rfl, (by decide : Sys2Proof.operandCount 0x9A = 0)⟩
theorem Sys2Proof.Laws.Length.tasAby (lo hi : Sys2Proof.Byte) :
    Sys2Proof.Laws.Length.Statement (.tasAby lo hi) :=
  ⟨rfl, (by decide : Sys2Proof.operandCount 0x9B = 2)⟩
theorem Sys2Proof.Laws.Length.shyAbx (lo hi : Sys2Proof.Byte) :
    Sys2Proof.Laws.Length.Statement (.shyAbx lo hi) :=
  ⟨rfl, (by decide : Sys2Proof.operandCount 0x9C = 2)⟩
theorem Sys2Proof.Laws.Length.staAbx (lo hi : Sys2Proof.Byte) :
    Sys2Proof.Laws.Length.Statement (.staAbx lo hi) :=
  ⟨rfl, (by decide : Sys2Proof.operandCount 0x9D = 2)⟩
theorem Sys2Proof.Laws.Length.shxAby (lo hi : Sys2Proof.Byte) :
    Sys2Proof.Laws.Length.Statement (.shxAby lo hi) :=
  ⟨rfl, (by decide : Sys2Proof.operandCount 0x9E = 2)⟩
theorem Sys2Proof.Laws.Length.shaAby (lo hi : Sys2Proof.Byte) :
    Sys2Proof.Laws.Length.Statement (.shaAby lo hi) :=
  ⟨rfl, (by decide : Sys2Proof.operandCount 0x9F = 2)⟩
theorem Sys2Proof.Laws.Length.ldyImm (v : Sys2Proof.Byte) :
    Sys2Proof.Laws.Length.Statement (.ldyImm v) :=
  ⟨rfl, (by decide : Sys2Proof.operandCount 0xA0 = 1)⟩
theorem Sys2Proof.Laws.Length.ldaIzx (z : Sys2Proof.Byte) :
    Sys2Proof.Laws.Length.Statement (.ldaIzx z) :=
  ⟨rfl, (by decide : Sys2Proof.operandCount 0xA1 = 1)⟩
theorem Sys2Proof.Laws.Length.ldxImm (v : Sys2Proof.Byte) :
    Sys2Proof.Laws.Length.Statement (.ldxImm v) :=
  ⟨rfl, (by decide : Sys2Proof.operandCount 0xA2 = 1)⟩
theorem Sys2Proof.Laws.Length.laxIzx (z : Sys2Proof.Byte) :
    Sys2Proof.Laws.Length.Statement (.laxIzx z) :=
  ⟨rfl, (by decide : Sys2Proof.operandCount 0xA3 = 1)⟩
theorem Sys2Proof.Laws.Length.ldyZp (z : Sys2Proof.Byte) :
    Sys2Proof.Laws.Length.Statement (.ldyZp z) :=
  ⟨rfl, (by decide : Sys2Proof.operandCount 0xA4 = 1)⟩
theorem Sys2Proof.Laws.Length.ldaZp (z : Sys2Proof.Byte) :
    Sys2Proof.Laws.Length.Statement (.ldaZp z) :=
  ⟨rfl, (by decide : Sys2Proof.operandCount 0xA5 = 1)⟩
theorem Sys2Proof.Laws.Length.ldxZp (z : Sys2Proof.Byte) :
    Sys2Proof.Laws.Length.Statement (.ldxZp z) :=
  ⟨rfl, (by decide : Sys2Proof.operandCount 0xA6 = 1)⟩
theorem Sys2Proof.Laws.Length.laxZp (z : Sys2Proof.Byte) :
    Sys2Proof.Laws.Length.Statement (.laxZp z) :=
  ⟨rfl, (by decide : Sys2Proof.operandCount 0xA7 = 1)⟩
theorem Sys2Proof.Laws.Length.tay :
    Sys2Proof.Laws.Length.Statement .tay :=
  ⟨rfl, (by decide : Sys2Proof.operandCount 0xA8 = 0)⟩
theorem Sys2Proof.Laws.Length.ldaImm (v : Sys2Proof.Byte) :
    Sys2Proof.Laws.Length.Statement (.ldaImm v) :=
  ⟨rfl, (by decide : Sys2Proof.operandCount 0xA9 = 1)⟩
theorem Sys2Proof.Laws.Length.tax :
    Sys2Proof.Laws.Length.Statement .tax :=
  ⟨rfl, (by decide : Sys2Proof.operandCount 0xAA = 0)⟩
theorem Sys2Proof.Laws.Length.lxaImm (v : Sys2Proof.Byte) :
    Sys2Proof.Laws.Length.Statement (.lxaImm v) :=
  ⟨rfl, (by decide : Sys2Proof.operandCount 0xAB = 1)⟩
theorem Sys2Proof.Laws.Length.ldyAbs (lo hi : Sys2Proof.Byte) :
    Sys2Proof.Laws.Length.Statement (.ldyAbs lo hi) :=
  ⟨rfl, (by decide : Sys2Proof.operandCount 0xAC = 2)⟩
theorem Sys2Proof.Laws.Length.ldaAbs (lo hi : Sys2Proof.Byte) :
    Sys2Proof.Laws.Length.Statement (.ldaAbs lo hi) :=
  ⟨rfl, (by decide : Sys2Proof.operandCount 0xAD = 2)⟩
theorem Sys2Proof.Laws.Length.ldxAbs (lo hi : Sys2Proof.Byte) :
    Sys2Proof.Laws.Length.Statement (.ldxAbs lo hi) :=
  ⟨rfl, (by decide : Sys2Proof.operandCount 0xAE = 2)⟩
theorem Sys2Proof.Laws.Length.laxAbs (lo hi : Sys2Proof.Byte) :
    Sys2Proof.Laws.Length.Statement (.laxAbs lo hi) :=
  ⟨rfl, (by decide : Sys2Proof.operandCount 0xAF = 2)⟩
theorem Sys2Proof.Laws.Length.bcs (off : Sys2Proof.Byte) :
    Sys2Proof.Laws.Length.Statement (.bcs off) :=
  ⟨rfl, (by decide : Sys2Proof.operandCount 0xB0 = 1)⟩
theorem Sys2Proof.Laws.Length.ldaIzy (z : Sys2Proof.Byte) :
    Sys2Proof.Laws.Length.Statement (.ldaIzy z) :=
  ⟨rfl, (by decide : Sys2Proof.operandCount 0xB1 = 1)⟩
theorem Sys2Proof.Laws.Length.jamB2 :
    Sys2Proof.Laws.Length.Statement .jamB2 :=
  ⟨rfl, (by decide : Sys2Proof.operandCount 0xB2 = 0)⟩
theorem Sys2Proof.Laws.Length.laxIzy (z : Sys2Proof.Byte) :
    Sys2Proof.Laws.Length.Statement (.laxIzy z) :=
  ⟨rfl, (by decide : Sys2Proof.operandCount 0xB3 = 1)⟩
theorem Sys2Proof.Laws.Length.ldyZpx (z : Sys2Proof.Byte) :
    Sys2Proof.Laws.Length.Statement (.ldyZpx z) :=
  ⟨rfl, (by decide : Sys2Proof.operandCount 0xB4 = 1)⟩
theorem Sys2Proof.Laws.Length.ldaZpx (z : Sys2Proof.Byte) :
    Sys2Proof.Laws.Length.Statement (.ldaZpx z) :=
  ⟨rfl, (by decide : Sys2Proof.operandCount 0xB5 = 1)⟩
theorem Sys2Proof.Laws.Length.ldxZpy (z : Sys2Proof.Byte) :
    Sys2Proof.Laws.Length.Statement (.ldxZpy z) :=
  ⟨rfl, (by decide : Sys2Proof.operandCount 0xB6 = 1)⟩
theorem Sys2Proof.Laws.Length.laxZpy (z : Sys2Proof.Byte) :
    Sys2Proof.Laws.Length.Statement (.laxZpy z) :=
  ⟨rfl, (by decide : Sys2Proof.operandCount 0xB7 = 1)⟩
theorem Sys2Proof.Laws.Length.clv :
    Sys2Proof.Laws.Length.Statement .clv :=
  ⟨rfl, (by decide : Sys2Proof.operandCount 0xB8 = 0)⟩
theorem Sys2Proof.Laws.Length.ldaAby (lo hi : Sys2Proof.Byte) :
    Sys2Proof.Laws.Length.Statement (.ldaAby lo hi) :=
  ⟨rfl, (by decide : Sys2Proof.operandCount 0xB9 = 2)⟩
theorem Sys2Proof.Laws.Length.tsx :
    Sys2Proof.Laws.Length.Statement .tsx :=
  ⟨rfl, (by decide : Sys2Proof.operandCount 0xBA = 0)⟩
theorem Sys2Proof.Laws.Length.lasAby (lo hi : Sys2Proof.Byte) :
    Sys2Proof.Laws.Length.Statement (.lasAby lo hi) :=
  ⟨rfl, (by decide : Sys2Proof.operandCount 0xBB = 2)⟩
theorem Sys2Proof.Laws.Length.ldyAbx (lo hi : Sys2Proof.Byte) :
    Sys2Proof.Laws.Length.Statement (.ldyAbx lo hi) :=
  ⟨rfl, (by decide : Sys2Proof.operandCount 0xBC = 2)⟩
theorem Sys2Proof.Laws.Length.ldaAbx (lo hi : Sys2Proof.Byte) :
    Sys2Proof.Laws.Length.Statement (.ldaAbx lo hi) :=
  ⟨rfl, (by decide : Sys2Proof.operandCount 0xBD = 2)⟩
theorem Sys2Proof.Laws.Length.ldxAby (lo hi : Sys2Proof.Byte) :
    Sys2Proof.Laws.Length.Statement (.ldxAby lo hi) :=
  ⟨rfl, (by decide : Sys2Proof.operandCount 0xBE = 2)⟩
theorem Sys2Proof.Laws.Length.laxAby (lo hi : Sys2Proof.Byte) :
    Sys2Proof.Laws.Length.Statement (.laxAby lo hi) :=
  ⟨rfl, (by decide : Sys2Proof.operandCount 0xBF = 2)⟩
theorem Sys2Proof.Laws.Length.cpyImm (v : Sys2Proof.Byte) :
    Sys2Proof.Laws.Length.Statement (.cpyImm v) :=
  ⟨rfl, (by decide : Sys2Proof.operandCount 0xC0 = 1)⟩
theorem Sys2Proof.Laws.Length.cmpIzx (z : Sys2Proof.Byte) :
    Sys2Proof.Laws.Length.Statement (.cmpIzx z) :=
  ⟨rfl, (by decide : Sys2Proof.operandCount 0xC1 = 1)⟩
theorem Sys2Proof.Laws.Length.nopImmC2 (v : Sys2Proof.Byte) :
    Sys2Proof.Laws.Length.Statement (.nopImmC2 v) :=
  ⟨rfl, (by decide : Sys2Proof.operandCount 0xC2 = 1)⟩
theorem Sys2Proof.Laws.Length.dcpIzx (z : Sys2Proof.Byte) :
    Sys2Proof.Laws.Length.Statement (.dcpIzx z) :=
  ⟨rfl, (by decide : Sys2Proof.operandCount 0xC3 = 1)⟩
theorem Sys2Proof.Laws.Length.cpyZp (z : Sys2Proof.Byte) :
    Sys2Proof.Laws.Length.Statement (.cpyZp z) :=
  ⟨rfl, (by decide : Sys2Proof.operandCount 0xC4 = 1)⟩
theorem Sys2Proof.Laws.Length.cmpZp (z : Sys2Proof.Byte) :
    Sys2Proof.Laws.Length.Statement (.cmpZp z) :=
  ⟨rfl, (by decide : Sys2Proof.operandCount 0xC5 = 1)⟩
theorem Sys2Proof.Laws.Length.decZp (z : Sys2Proof.Byte) :
    Sys2Proof.Laws.Length.Statement (.decZp z) :=
  ⟨rfl, (by decide : Sys2Proof.operandCount 0xC6 = 1)⟩
theorem Sys2Proof.Laws.Length.dcpZp (z : Sys2Proof.Byte) :
    Sys2Proof.Laws.Length.Statement (.dcpZp z) :=
  ⟨rfl, (by decide : Sys2Proof.operandCount 0xC7 = 1)⟩
theorem Sys2Proof.Laws.Length.iny :
    Sys2Proof.Laws.Length.Statement .iny :=
  ⟨rfl, (by decide : Sys2Proof.operandCount 0xC8 = 0)⟩
theorem Sys2Proof.Laws.Length.cmpImm (v : Sys2Proof.Byte) :
    Sys2Proof.Laws.Length.Statement (.cmpImm v) :=
  ⟨rfl, (by decide : Sys2Proof.operandCount 0xC9 = 1)⟩
theorem Sys2Proof.Laws.Length.dex :
    Sys2Proof.Laws.Length.Statement .dex :=
  ⟨rfl, (by decide : Sys2Proof.operandCount 0xCA = 0)⟩
theorem Sys2Proof.Laws.Length.sbxImm (v : Sys2Proof.Byte) :
    Sys2Proof.Laws.Length.Statement (.sbxImm v) :=
  ⟨rfl, (by decide : Sys2Proof.operandCount 0xCB = 1)⟩
theorem Sys2Proof.Laws.Length.cpyAbs (lo hi : Sys2Proof.Byte) :
    Sys2Proof.Laws.Length.Statement (.cpyAbs lo hi) :=
  ⟨rfl, (by decide : Sys2Proof.operandCount 0xCC = 2)⟩
theorem Sys2Proof.Laws.Length.cmpAbs (lo hi : Sys2Proof.Byte) :
    Sys2Proof.Laws.Length.Statement (.cmpAbs lo hi) :=
  ⟨rfl, (by decide : Sys2Proof.operandCount 0xCD = 2)⟩
theorem Sys2Proof.Laws.Length.decAbs (lo hi : Sys2Proof.Byte) :
    Sys2Proof.Laws.Length.Statement (.decAbs lo hi) :=
  ⟨rfl, (by decide : Sys2Proof.operandCount 0xCE = 2)⟩
theorem Sys2Proof.Laws.Length.dcpAbs (lo hi : Sys2Proof.Byte) :
    Sys2Proof.Laws.Length.Statement (.dcpAbs lo hi) :=
  ⟨rfl, (by decide : Sys2Proof.operandCount 0xCF = 2)⟩
theorem Sys2Proof.Laws.Length.bne (off : Sys2Proof.Byte) :
    Sys2Proof.Laws.Length.Statement (.bne off) :=
  ⟨rfl, (by decide : Sys2Proof.operandCount 0xD0 = 1)⟩
theorem Sys2Proof.Laws.Length.cmpIzy (z : Sys2Proof.Byte) :
    Sys2Proof.Laws.Length.Statement (.cmpIzy z) :=
  ⟨rfl, (by decide : Sys2Proof.operandCount 0xD1 = 1)⟩
theorem Sys2Proof.Laws.Length.jamD2 :
    Sys2Proof.Laws.Length.Statement .jamD2 :=
  ⟨rfl, (by decide : Sys2Proof.operandCount 0xD2 = 0)⟩
theorem Sys2Proof.Laws.Length.dcpIzy (z : Sys2Proof.Byte) :
    Sys2Proof.Laws.Length.Statement (.dcpIzy z) :=
  ⟨rfl, (by decide : Sys2Proof.operandCount 0xD3 = 1)⟩
theorem Sys2Proof.Laws.Length.nopZpxD4 (z : Sys2Proof.Byte) :
    Sys2Proof.Laws.Length.Statement (.nopZpxD4 z) :=
  ⟨rfl, (by decide : Sys2Proof.operandCount 0xD4 = 1)⟩
theorem Sys2Proof.Laws.Length.cmpZpx (z : Sys2Proof.Byte) :
    Sys2Proof.Laws.Length.Statement (.cmpZpx z) :=
  ⟨rfl, (by decide : Sys2Proof.operandCount 0xD5 = 1)⟩
theorem Sys2Proof.Laws.Length.decZpx (z : Sys2Proof.Byte) :
    Sys2Proof.Laws.Length.Statement (.decZpx z) :=
  ⟨rfl, (by decide : Sys2Proof.operandCount 0xD6 = 1)⟩
theorem Sys2Proof.Laws.Length.dcpZpx (z : Sys2Proof.Byte) :
    Sys2Proof.Laws.Length.Statement (.dcpZpx z) :=
  ⟨rfl, (by decide : Sys2Proof.operandCount 0xD7 = 1)⟩
theorem Sys2Proof.Laws.Length.cld :
    Sys2Proof.Laws.Length.Statement .cld :=
  ⟨rfl, (by decide : Sys2Proof.operandCount 0xD8 = 0)⟩
theorem Sys2Proof.Laws.Length.cmpAby (lo hi : Sys2Proof.Byte) :
    Sys2Proof.Laws.Length.Statement (.cmpAby lo hi) :=
  ⟨rfl, (by decide : Sys2Proof.operandCount 0xD9 = 2)⟩
theorem Sys2Proof.Laws.Length.nopDA :
    Sys2Proof.Laws.Length.Statement .nopDA :=
  ⟨rfl, (by decide : Sys2Proof.operandCount 0xDA = 0)⟩
theorem Sys2Proof.Laws.Length.dcpAby (lo hi : Sys2Proof.Byte) :
    Sys2Proof.Laws.Length.Statement (.dcpAby lo hi) :=
  ⟨rfl, (by decide : Sys2Proof.operandCount 0xDB = 2)⟩
theorem Sys2Proof.Laws.Length.nopAbxDC (lo hi : Sys2Proof.Byte) :
    Sys2Proof.Laws.Length.Statement (.nopAbxDC lo hi) :=
  ⟨rfl, (by decide : Sys2Proof.operandCount 0xDC = 2)⟩
theorem Sys2Proof.Laws.Length.cmpAbx (lo hi : Sys2Proof.Byte) :
    Sys2Proof.Laws.Length.Statement (.cmpAbx lo hi) :=
  ⟨rfl, (by decide : Sys2Proof.operandCount 0xDD = 2)⟩
theorem Sys2Proof.Laws.Length.decAbx (lo hi : Sys2Proof.Byte) :
    Sys2Proof.Laws.Length.Statement (.decAbx lo hi) :=
  ⟨rfl, (by decide : Sys2Proof.operandCount 0xDE = 2)⟩
theorem Sys2Proof.Laws.Length.dcpAbx (lo hi : Sys2Proof.Byte) :
    Sys2Proof.Laws.Length.Statement (.dcpAbx lo hi) :=
  ⟨rfl, (by decide : Sys2Proof.operandCount 0xDF = 2)⟩
theorem Sys2Proof.Laws.Length.cpxImm (v : Sys2Proof.Byte) :
    Sys2Proof.Laws.Length.Statement (.cpxImm v) :=
  ⟨rfl, (by decide : Sys2Proof.operandCount 0xE0 = 1)⟩
theorem Sys2Proof.Laws.Length.sbcIzx (z : Sys2Proof.Byte) :
    Sys2Proof.Laws.Length.Statement (.sbcIzx z) :=
  ⟨rfl, (by decide : Sys2Proof.operandCount 0xE1 = 1)⟩
theorem Sys2Proof.Laws.Length.nopImmE2 (v : Sys2Proof.Byte) :
    Sys2Proof.Laws.Length.Statement (.nopImmE2 v) :=
  ⟨rfl, (by decide : Sys2Proof.operandCount 0xE2 = 1)⟩
theorem Sys2Proof.Laws.Length.iscIzx (z : Sys2Proof.Byte) :
    Sys2Proof.Laws.Length.Statement (.iscIzx z) :=
  ⟨rfl, (by decide : Sys2Proof.operandCount 0xE3 = 1)⟩
theorem Sys2Proof.Laws.Length.cpxZp (z : Sys2Proof.Byte) :
    Sys2Proof.Laws.Length.Statement (.cpxZp z) :=
  ⟨rfl, (by decide : Sys2Proof.operandCount 0xE4 = 1)⟩
theorem Sys2Proof.Laws.Length.sbcZp (z : Sys2Proof.Byte) :
    Sys2Proof.Laws.Length.Statement (.sbcZp z) :=
  ⟨rfl, (by decide : Sys2Proof.operandCount 0xE5 = 1)⟩
theorem Sys2Proof.Laws.Length.incZp (z : Sys2Proof.Byte) :
    Sys2Proof.Laws.Length.Statement (.incZp z) :=
  ⟨rfl, (by decide : Sys2Proof.operandCount 0xE6 = 1)⟩
theorem Sys2Proof.Laws.Length.iscZp (z : Sys2Proof.Byte) :
    Sys2Proof.Laws.Length.Statement (.iscZp z) :=
  ⟨rfl, (by decide : Sys2Proof.operandCount 0xE7 = 1)⟩
theorem Sys2Proof.Laws.Length.inx :
    Sys2Proof.Laws.Length.Statement .inx :=
  ⟨rfl, (by decide : Sys2Proof.operandCount 0xE8 = 0)⟩
theorem Sys2Proof.Laws.Length.sbcImm (v : Sys2Proof.Byte) :
    Sys2Proof.Laws.Length.Statement (.sbcImm v) :=
  ⟨rfl, (by decide : Sys2Proof.operandCount 0xE9 = 1)⟩
theorem Sys2Proof.Laws.Length.nop :
    Sys2Proof.Laws.Length.Statement .nop :=
  ⟨rfl, (by decide : Sys2Proof.operandCount 0xEA = 0)⟩
theorem Sys2Proof.Laws.Length.usbcImm (v : Sys2Proof.Byte) :
    Sys2Proof.Laws.Length.Statement (.usbcImm v) :=
  ⟨rfl, (by decide : Sys2Proof.operandCount 0xEB = 1)⟩
theorem Sys2Proof.Laws.Length.cpxAbs (lo hi : Sys2Proof.Byte) :
    Sys2Proof.Laws.Length.Statement (.cpxAbs lo hi) :=
  ⟨rfl, (by decide : Sys2Proof.operandCount 0xEC = 2)⟩
theorem Sys2Proof.Laws.Length.sbcAbs (lo hi : Sys2Proof.Byte) :
    Sys2Proof.Laws.Length.Statement (.sbcAbs lo hi) :=
  ⟨rfl, (by decide : Sys2Proof.operandCount 0xED = 2)⟩
theorem Sys2Proof.Laws.Length.incAbs (lo hi : Sys2Proof.Byte) :
    Sys2Proof.Laws.Length.Statement (.incAbs lo hi) :=
  ⟨rfl, (by decide : Sys2Proof.operandCount 0xEE = 2)⟩
theorem Sys2Proof.Laws.Length.iscAbs (lo hi : Sys2Proof.Byte) :
    Sys2Proof.Laws.Length.Statement (.iscAbs lo hi) :=
  ⟨rfl, (by decide : Sys2Proof.operandCount 0xEF = 2)⟩
theorem Sys2Proof.Laws.Length.beq (off : Sys2Proof.Byte) :
    Sys2Proof.Laws.Length.Statement (.beq off) :=
  ⟨rfl, (by decide : Sys2Proof.operandCount 0xF0 = 1)⟩
theorem Sys2Proof.Laws.Length.sbcIzy (z : Sys2Proof.Byte) :
    Sys2Proof.Laws.Length.Statement (.sbcIzy z) :=
  ⟨rfl, (by decide : Sys2Proof.operandCount 0xF1 = 1)⟩
theorem Sys2Proof.Laws.Length.jamF2 :
    Sys2Proof.Laws.Length.Statement .jamF2 :=
  ⟨rfl, (by decide : Sys2Proof.operandCount 0xF2 = 0)⟩
theorem Sys2Proof.Laws.Length.iscIzy (z : Sys2Proof.Byte) :
    Sys2Proof.Laws.Length.Statement (.iscIzy z) :=
  ⟨rfl, (by decide : Sys2Proof.operandCount 0xF3 = 1)⟩
theorem Sys2Proof.Laws.Length.nopZpxF4 (z : Sys2Proof.Byte) :
    Sys2Proof.Laws.Length.Statement (.nopZpxF4 z) :=
  ⟨rfl, (by decide : Sys2Proof.operandCount 0xF4 = 1)⟩
theorem Sys2Proof.Laws.Length.sbcZpx (z : Sys2Proof.Byte) :
    Sys2Proof.Laws.Length.Statement (.sbcZpx z) :=
  ⟨rfl, (by decide : Sys2Proof.operandCount 0xF5 = 1)⟩
theorem Sys2Proof.Laws.Length.incZpx (z : Sys2Proof.Byte) :
    Sys2Proof.Laws.Length.Statement (.incZpx z) :=
  ⟨rfl, (by decide : Sys2Proof.operandCount 0xF6 = 1)⟩
theorem Sys2Proof.Laws.Length.iscZpx (z : Sys2Proof.Byte) :
    Sys2Proof.Laws.Length.Statement (.iscZpx z) :=
  ⟨rfl, (by decide : Sys2Proof.operandCount 0xF7 = 1)⟩
theorem Sys2Proof.Laws.Length.sed :
    Sys2Proof.Laws.Length.Statement .sed :=
  ⟨rfl, (by decide : Sys2Proof.operandCount 0xF8 = 0)⟩
theorem Sys2Proof.Laws.Length.sbcAby (lo hi : Sys2Proof.Byte) :
    Sys2Proof.Laws.Length.Statement (.sbcAby lo hi) :=
  ⟨rfl, (by decide : Sys2Proof.operandCount 0xF9 = 2)⟩
theorem Sys2Proof.Laws.Length.nopFA :
    Sys2Proof.Laws.Length.Statement .nopFA :=
  ⟨rfl, (by decide : Sys2Proof.operandCount 0xFA = 0)⟩
theorem Sys2Proof.Laws.Length.iscAby (lo hi : Sys2Proof.Byte) :
    Sys2Proof.Laws.Length.Statement (.iscAby lo hi) :=
  ⟨rfl, (by decide : Sys2Proof.operandCount 0xFB = 2)⟩
theorem Sys2Proof.Laws.Length.nopAbxFC (lo hi : Sys2Proof.Byte) :
    Sys2Proof.Laws.Length.Statement (.nopAbxFC lo hi) :=
  ⟨rfl, (by decide : Sys2Proof.operandCount 0xFC = 2)⟩
theorem Sys2Proof.Laws.Length.sbcAbx (lo hi : Sys2Proof.Byte) :
    Sys2Proof.Laws.Length.Statement (.sbcAbx lo hi) :=
  ⟨rfl, (by decide : Sys2Proof.operandCount 0xFD = 2)⟩
theorem Sys2Proof.Laws.Length.incAbx (lo hi : Sys2Proof.Byte) :
    Sys2Proof.Laws.Length.Statement (.incAbx lo hi) :=
  ⟨rfl, (by decide : Sys2Proof.operandCount 0xFE = 2)⟩
theorem Sys2Proof.Laws.Length.iscAbx (lo hi : Sys2Proof.Byte) :
    Sys2Proof.Laws.Length.Statement (.iscAbx lo hi) :=
  ⟨rfl, (by decide : Sys2Proof.operandCount 0xFF = 2)⟩
end

