-- ==== Sys2Proof/Laws/Quiet.lean ====
section
/-!
SUPPORT. With PPUCTRL bit 7 clear no cycle of a read, of a DMA or of a push makes an NMI pending (R178, R180, R240).
-/

namespace Sys2Proof.Machine

/-- No NMI is pending and none can become so by itself: PPUCTRL bit 7 is clear. -/
def Quiet (s : State) : Prop := s.nmiPending = false ∧ s.ppu.ctrl.getLsbD 7 = false

/-- PPUCTRL is kept. -/
theorem kept_ctrl {s t : State} (h : t.kept = s.kept) : t.ppu.ctrl = s.ppu.ctrl := congrArg (·.ppu.ctrl) h

theorem Quiet.of_kept {s t : State} (h : Quiet s) (k : t.kept = s.kept) (n : t.nmiPending = s.nmiPending) : Quiet t :=
  ⟨n.trans h.1, by rw [kept_ctrl k]; exact h.2⟩

/-! ## One dot -/

theorem bgFetch_nmi (s : State) : (bgFetch s).nmiPending = s.nmiPending := by
  unfold bgFetch
  dsimp only
  split
  · split <;> rfl
  · split <;> rfl

theorem spriteEvalDot_nmi (s : State) : (spriteEvalDot s).nmiPending = s.nmiPending := by
  have hs : ∀ t : State, t.nmiPending = s.nmiPending →
      (if t.ppu.evalOvfDot = some s.ppu.dot then { t with ppu := { t.ppu with spriteOverflow := true } }
        else t).nmiPending = s.nmiPending := by
    intro t ht
    split <;> exact ht
  unfold spriteEvalDot
  dsimp only
  split
  · apply hs
    split
    · rfl
    · split
      · split <;> rfl
      · rfl
  · rfl

theorem spriteFetchDot_nmi (s : State) : (spriteFetchDot s).nmiPending = s.nmiPending := by
  unfold spriteFetchDot slotFetch
  dsimp only
  repeat' split
  all_goals rfl

theorem renderDot_nmi (s : State) : (renderDot s).nmiPending = s.nmiPending := by
  unfold renderDot
  split
  · exact ((spriteFetchDot_nmi _).trans (spriteEvalDot_nmi _)).trans (bgFetch_nmi s)
  · rfl

theorem ppuDot_nmi (s : State) : (ppuDot s).nmiPending = s.nmiPending := by
  have h : ∀ t : State, (ppuObserve t).nmiPending = t.nmiPending := by
    intro t
    unfold ppuObserve
    split <;> rfl
  exact (h _).trans (renderDot_nmi _)

theorem ppuDots_nmi (n : Nat) (s : State) : (ppuDots n s).nmiPending = s.nmiPending := by
  induction n generalizing s with
  | zero => rfl
  | succ n ih => exact (ih _).trans (ppuDot_nmi s)

theorem ppuDots_quiet (n : Nat) {s : State} (h : Quiet s) : Quiet (ppuDots n s) :=
  h.of_kept (ppuDots_same n s).2 (ppuDots_nmi n s)

/-! ## Cycles -/

theorem apuCycle_nmi (s : State) : (apuCycle s).nmiPending = s.nmiPending := by
  unfold apuCycle sampleCheck dmcReader
  dsimp only
  repeat' split
  all_goals rfl

theorem cycleEnd_quiet {s : State} (h : Quiet s) : Quiet (cycleEnd s) := by
  have h1 := ppuDots_quiet (3 - s.params.ppuPhase.val) h
  have h2 := h1.of_kept (apuCycle_same _).2 (apuCycle_nmi _)
  refine ⟨?_, ?_⟩
  · show (_ || (nmiOutput _ && !_)) = false
    unfold nmiOutput
    rw [h2.1, h2.2, Bool.and_false]
    rfl
  · rw [kept_ctrl (cycleEnd_same s).2]
    exact h.2

/-- A cycle around an access that stays quiet stays quiet. -/
theorem cycle_quiet {f : State → State} (hf : ∀ s, Quiet s → Quiet (f s)) {s : State} (h : Quiet s) : Quiet (cycle f s) :=
  cycleEnd_quiet (hf _ (ppuDots_quiet _ h))

theorem readAccess_quiet (a : Word) (s : State) (h : Quiet s) : Quiet (readAccess a s) := by
  refine h.of_kept (readAccess_same a s).2 ?_
  unfold readAccess ppuRegRead readStatus readOamData readData readPort0 readPort1
  rw [if_neg (by rw [h.2]; decide : ¬s.ppu.ctrl.getLsbD 7 = true)]
  dsimp only
  repeat' split
  all_goals rfl

theorem dmcAccess_quiet (s : State) (h : Quiet s) : Quiet (dmcAccess s) := by
  refine h.of_kept (dmcAccess_same s).2 ?_
  have h1 := (readAccess_quiet s.apu.dmc.address s h).1
  unfold dmcAccess dmcDone
  dsimp only
  split <;> exact h1.trans h.1.symm

theorem oamWrite_quiet (v : Byte) (s : State) (h : Quiet s) : Quiet (writeAccess 0x2004 v s) := by
  refine ⟨h.1, ?_⟩
  show (Ppu.writeOamData v { s.ppu with ioLatch := v }).ctrl.getLsbD 7 = false
  unfold Ppu.writeOamData
  split <;> exact h.2

theorem ramWrite_quiet {a : Word} (ha : a.toNat < 0x2000) (v : Byte) (s : State) (h : Quiet s) : Quiet (writeAccess a v s) := by
  unfold writeAccess
  rw [routeWrite_ram v s ha]
  exact h

/-! ## DMA and CPU accesses -/

theorem dmcSlot_quiet (a : Word) {s : State} (h : Quiet s) : Quiet (dmcSlot a s) := by
  unfold dmcSlot
  split
  · exact cycle_quiet (readAccess_quiet a) (cycle_quiet dmcAccess_quiet h)
  · exact h

theorem oamByte_quiet (a src : Word) {s : State} (h : Quiet s) : Quiet (oamByte a src s) :=
  cycle_quiet (oamWrite_quiet _) (cycle_quiet (readAccess_quiet src) (dmcSlot_quiet a (dmcSlot_quiet a h)))

theorem oamBytes_quiet (a : Word) (page : Byte) (n i : Nat) {s : State} (h : Quiet s) : Quiet (oamBytes a page n i s) := by
  induction n generalizing i s with
  | zero => exact h
  | succ n ih => exact ih _ (oamByte_quiet _ _ h)

theorem serviceDma_quiet (a : Word) {s : State} (h : Quiet s) : Quiet (serviceDma a s) := by
  have hc : ∀ {t : State}, Quiet t → Quiet (cycle (readAccess a) t) := fun h => cycle_quiet (readAccess_quiet a) h
  have ho : Quiet (serviceOam a s) := by
    unfold serviceOam
    split
    · unfold runOam
      dsimp only
      refine oamBytes_quiet _ _ _ _ ?_
      split
      · exact hc (hc h)
      · exact hc h
    · exact h
  unfold serviceDma serviceDmc
  split
  · unfold runDmc
    dsimp only
    refine cycle_quiet dmcAccess_quiet ?_
    split
    · exact hc (hc (hc ho))
    · exact hc (hc ho)
  · exact ho

theorem cpuRead_quiet (a : Word) {s : State} (h : Quiet s) : Quiet (cpuRead a s) :=
  cycle_quiet (readAccess_quiet a) (serviceDma_quiet a h)

theorem readPc_quiet {s : State} (h : Quiet s) : Quiet (readPc s) := by
  have q := cpuRead_quiet s.regs.pc h
  unfold readPc
  generalize cpuRead s.regs.pc s = t at q ⊢
  exact q

theorem push_quiet (v : Byte) {s : State} (h : Quiet s) : Quiet (push v s) := by
  have q : Quiet (cpuWrite (stackAddr s.regs.sp) v s) := cycle_quiet (ramWrite_quiet (stack_ram _) v) h
  unfold push
  generalize cpuWrite (stackAddr s.regs.sp) v s = t at q ⊢
  exact q

end Sys2Proof.Machine
end

