-- ==== Sys2Proof/Laws/Runs.lean ====
section
/-!
SUPPORT. Runs of steps: their concatenation, that a run has one end, and what a clean entry gives (R295, R296).
-/

namespace Sys2Proof.Machine

/-- A run of m + n steps is one of m steps and then one of n. -/
theorem stepN_add (m n : Nat) (s : State) : stepN (m + n) s = (stepN m s).bind (stepN n) := by
  induction m generalizing s with
  | zero => rw [Nat.zero_add]; rfl
  | succ m ih =>
    rw [Nat.succ_add]
    simp only [stepN]
    split
    · exact ih _
    · rfl
    · rfl

/-- A run reaches at most one first state that satisfies a predicate. -/
theorem FirstOfRun.unique {p : State → Prop} {s t u : State} (ht : FirstOfRun p s t) (hu : FirstOfRun p s u) : t = u := by
  obtain ⟨m, hm, pm, fm⟩ := ht
  obtain ⟨n, hn, pn, fn⟩ := hu
  obtain h | h | h := Nat.lt_trichotomy m n
  · exact absurd pm (fn m t h hm)
  · rw [h, hn] at hm
    exact (Option.some.inj hm).symm
  · exact absurd pn (fm n u h hn)

/-- No interrupt in two runs, the second from the end of the first, is none in the whole. -/
theorem NoInterrupts.trans {s t u : State} (h : NoInterrupts s t) (k : NoInterrupts t u) : NoInterrupts s u :=
  ⟨k.1.trans h.1, k.2.trans h.2⟩

/-- The conditions of R295 that a clean entry has from power-on. -/
theorem CleanEntry.conditions {image : List Byte} {params : Params} {e : Entry} {s : State}
    (h : CleanEntry image params e s) :
    AtFetch s ∧ NoDma s ∧ s.regs = e.regs ∧ s.nmiPending = false ∧ s.irqLine = false ∧ s.nmiPrev = false ∧
      s.apu.frameIrq = false ∧ s.apu.dmcIrq = false ∧ s.cart.irqPending = false ∧ s.ppu.ctrl.getLsbD 7 = false := by
  obtain ⟨-, u, ⟨cart, hc, rfl⟩, rfl⟩ := h
  refine ⟨⟨rfl, rfl, rfl, rfl⟩, ⟨rfl, rfl, rfl⟩, rfl, rfl, rfl, rfl, rfl, rfl, ?_, by
    exact (by decide : (0 : Byte).getLsbD 7 = false)⟩
  have hm : cart.mmc3 = Mmc3.powerOn := by
    unfold load at hc
    dsimp only at hc
    repeat' split at hc
    all_goals cases hc
    rfl
  show cart.irqPending = false
  unfold Cartridge.irqPending
  split
  · rfl
  · rw [hm]; rfl

end Sys2Proof.Machine
end

