-- ==== Sys2Proof/Laws/Sequences.lean ====
section
/-!
SUPPORT. One law for each sequence that several instructions or an interrupt share: the stack after pushes, entering a
handler, a branch, an unstable store.
-/

namespace Sys2Proof.Machine

/-- A state kept but for its work RAM holds that work RAM. -/
theorem wram_of_kept {u w : State} {W : Memory} (h : u.kept = { w.kept with wram := W }) : u.wram = W := by
  have e := congrArg (fun u : State => u.wram) h
  exact e

/-- Each byte of work RAM after a push. -/
theorem push_byte (v : Byte) (s : State) (a : Word) :
    wramByte (push v s) a = if a.toNat % 2048 = 256 + s.regs.sp.toNat then v else wramByte s a := by
  have h := wram_of_kept (push_law v s).2
  rw [wramByte, h, Memory.get?_set]
  by_cases e : a.toNat % 2048 = 256 + s.regs.sp.toNat
  · rw [if_pos e, if_pos e.symm]; rfl
  · rw [if_neg e, if_neg (fun k => e k.symm)]; rfl

/-- A stack address selects the cell of page one at S. -/
theorem hitsRam_stack (sp : Byte) (a : Word) : hitsRam (stackAddr sp) a ↔ a.toNat % 2048 = 256 + sp.toNat := by
  have := sp.isLt
  rw [hitsRam, stackAddr_toNat]; omega

/-- `t` has `vs` pushed on the stack of `s`, first byte first. -/
def Pushed (vs : List Byte) (s t : State) : Prop :=
  PushedBytes vs s t ∧ t.regs.sp = s.regs.sp - BitVec.ofNat 8 vs.length

/-- Nothing pushed. -/
theorem Pushed.nil {s t : State} (h : t.kept = s.kept) (r : t.regs.sp = s.regs.sp) : Pushed [] s t := by
  refine ⟨⟨by simp, fun a _ => kept_wramByte h a, ?_⟩, by simp [r]⟩
  rw [h, kept_wram h]
  rfl

theorem kept_wram_self (s : State) (W : Memory) (t : State) (h : t.kept = { s.kept with wram := W }) :
    t.kept = { s.kept with wram := t.wram } := by
  rw [wram_of_kept h]
  exact h

/-- One more push, onto fewer than 256 bytes, so that no pushed byte is written over. -/
theorem Pushed.push {vs : List Byte} {s t : State} (h : Pushed vs s t) (v : Byte) (hl : vs.length < 256) :
    Pushed (vs ++ [v]) s (push v t) := by
  obtain ⟨⟨h1, h2, h3⟩, h4⟩ := h
  have hb := push_byte v t
  refine ⟨⟨?_, ?_, ?_⟩, ?_⟩
  · intro k w hk
    rw [hb]
    by_cases e : k < vs.length
    · rw [List.getElem?_append_left e] at hk
      rw [if_neg, h1 k w hk]
      have h0 := hitsRam_stack t.regs.sp (stackAddr (s.regs.sp - BitVec.ofNat 8 k))
      rw [h4] at *
      rw [← h0, hitsRam, stackAddr_toNat, stackAddr_toNat]
      simp only [BitVec.toNat_sub, BitVec.toNat_ofNat]
      have := s.regs.sp.isLt
      omega
    · have hk' : k = vs.length ∧ v = w := by
        rw [List.getElem?_append_right (by omega)] at hk
        have : k - vs.length = 0 := by
          by_contra hh
          rw [List.getElem?_eq_none (by simp; omega)] at hk; cases hk
        rw [this] at hk
        exact ⟨by omega, Option.some.inj hk⟩
      obtain ⟨rfl, rfl⟩ := hk'
      rw [if_pos]
      rw [h4, stackAddr_toNat]
      have := (s.regs.sp - BitVec.ofNat 8 vs.length).isLt
      omega
  · intro a ha
    have ha0 := ha vs.length (by simp)
    rw [hitsRam_stack, ← h4] at ha0
    rw [hb, if_neg ha0]
    exact h2 a (fun k hk => ha k (by simp; omega))
  · apply kept_wram_self s ((t.wram).set (256 + t.regs.sp.toNat) v)
    rw [(push_law v t).2, h3]
  · rw [(push_law v t).1]
    show t.regs.sp - 1 = _
    rw [h4, List.length_append, BitVec.ofNat_add, BitVec.sub_sub]
    rfl

/-- What time and reads do leaves the pushed bytes. -/
theorem Pushed.mono {vs : List Byte} {s t u : State} (h : Pushed vs s t) (k : u.kept = t.kept)
    (r : u.regs.sp = t.regs.sp) : Pushed vs s u := by
  obtain ⟨⟨h1, h2, h3⟩, h4⟩ := h
  refine ⟨⟨?_, ?_, ?_⟩, r.trans h4⟩
  · intro k' w hk; rw [kept_wramByte k]; exact h1 k' w hk
  · intro a ha; rw [kept_wramByte k]; exact h2 a ha
  · rw [k, h3, kept_wram k]

/-- PRG ROM reads as before the pushes. -/
theorem Pushed.rom {vs : List Byte} {s t : State} (h : Pushed vs s t) (a : Word) :
    t.cart.prgRomByte a = s.cart.prgRomByte a := by
  have h3 := h.1.2.2
  have k : ({ t with wram := s.wram } : State).kept = s.kept := by
    show ({ t.kept with wram := s.wram } : State) = s.kept
    rw [h3]; rfl
  exact kept_prgRomByte k a

/-- The byte form of P, as its eight bits. -/
theorem pByte_eq (b : Bool) (p : Flags) : pByte b p = statusByte b p := by
  obtain ⟨n, v, d, i, z, c⟩ := p
  unfold pByte statusByte flag
  cases b <;> cases n <;> cases v <;> cases d <;> cases i <;> cases z <;> cases c <;> rfl

/-- PRG ROM is plain memory. -/
theorem memByte_rom (s : State) (a : Word) (h : 0x8000 ≤ a.toNat) : memByte s a = some (s.cart.prgRomByte a) := by
  unfold memByte Cartridge.cpuRead
  rw [if_neg (by omega), if_neg (by omega), if_neg (by omega), if_neg (by omega)]

/-- A jump through a vector in PRG ROM. -/
theorem jumpThrough_rom (a a' : Word) (s : State) (h : 0x8000 ≤ a.toNat) (h' : 0x8000 ≤ a'.toNat) :
    (jumpThrough a a' s).regs = { s.regs with pc := w16 (s.cart.prgRomByte a') (s.cart.prgRomByte a) } ∧
      (jumpThrough a a' s).kept = s.kept := by
  obtain ⟨lo, hi, h1, h2, h3, h4⟩ := jumpThrough_law a a' s
  rw [h3 _ (memByte_rom s a h), h4 _ (memByte_rom s a' h')] at h1
  exact ⟨h1, h2⟩

/-- The choice of vector: the NMI's, and the latch cleared, or the IRQ's, and nothing (R184). -/
theorem chooseVector_law (nmi : Bool) (s : State) :
    ∃ (taken : Bool) (u : State),
      chooseVector nmi s = (if taken then 0xFFFA else 0xFFFE, u) ∧ (nmi = true → taken = true) ∧
        (s.nmiPending = true → taken = true) ∧ (nmi = false → s.nmiPending = false → taken = false) ∧ u.regs = s.regs ∧ u.kept = s.kept := by
  unfold chooseVector
  split
  · rename_i h
    refine ⟨true, _, rfl, fun _ => rfl, fun _ => rfl, ⟨fun a b => ?_, rfl, rfl⟩⟩
    rw [a, b] at h
    cases h
  · rename_i h
    rw [Bool.or_eq_true, not_or] at h
    exact ⟨false, _, rfl, fun k => absurd k h.1, fun k => absurd k h.2, ⟨fun _ _ => rfl, rfl, rfl⟩⟩

/-- The end of a sequence: a jump through a vector in PRG ROM, no interrupt chosen. -/
theorem vector_law (a : Word) (s : State) (h : 0x8000 ≤ a.toNat) (h' : 0x8000 ≤ (a + 1).toNat) :
    ({ jumpThrough a (a + 1) s with intNext := none } : State).regs =
        { s.regs with pc := w16 (s.cart.prgRomByte (a + 1)) (s.cart.prgRomByte a) } ∧
      ({ jumpThrough a (a + 1) s with intNext := none } : State).kept = s.kept := by
  obtain ⟨h1, h2⟩ := jumpThrough_rom a (a + 1) s h h'
  generalize jumpThrough a (a + 1) s = u at h1 h2
  exact ⟨h1, h2⟩

/-- Entering a handler: PC and P pushed, I set, PC from a vector, no interrupt chosen (R139, R182, R185). -/
theorem enterInterrupt_law (b nmi : Bool) {s0 s : State} (hk : s.kept = s0.kept) (hs : s.regs.sp = s0.regs.sp) :
    ∃ taken : Bool, (nmi = true → taken = true) ∧ (nmi = false → Quiet s → taken = false) ∧ (enterInterrupt b nmi s).intNext = none ∧
      (enterInterrupt b nmi s).regs = { s.regs with
        sp := s.regs.sp - 3
        pc := vectorAt s0 (if taken then 0xFFFA else 0xFFFE)
        p := { s.regs.p with i := true } } ∧
      PushedBytes [hiByte s.regs.pc, loByte s.regs.pc, statusByte b s.regs.p] s0 (enterInterrupt b nmi s) := by
  have p1 := (Pushed.nil hk hs).push (hiByte s.regs.pc) (by simp)
  have e1 := (push_law (hiByte s.regs.pc) s).1
  have q1 : Quiet s → Quiet (push (hiByte s.regs.pc) s) := push_quiet _
  unfold enterInterrupt
  dsimp only
  generalize push (hiByte s.regs.pc) s = t1 at *
  have hpc : t1.regs.pc = s.regs.pc := by rw [e1]
  rw [hpc]
  have p2 := p1.push (loByte s.regs.pc) (by simp)
  have e2 := (push_law (loByte s.regs.pc) t1).1
  have q2 : Quiet s → Quiet (push (loByte s.regs.pc) t1) := fun h => push_quiet _ (q1 h)
  generalize push (loByte s.regs.pc) t1 = t2 at *
  obtain ⟨taken, u, hc, hn, -, hq, ur, uk⟩ := chooseVector_law nmi t2
  rw [hc]
  dsimp only
  have p3 := (p2.mono uk (congrArg Regs.sp ur)).push (pByte b u.regs.p) (by simp)
  have e3 := (push_law (pByte b u.regs.p) u).1
  have hp : u.regs.p = s.regs.p := by rw [ur, e2, e1]
  rw [hp, pByte_eq] at p3 e3 ⊢
  generalize push (statusByte b s.regs.p) u = t3 at *
  have qr : t3.regs = { s.regs with sp := s.regs.sp - 3 } := by
    rw [e3, ur, e2, e1]
    show ({ s.regs with sp := s.regs.sp - 1 - 1 - 1 } : Regs) = _
    rw [BitVec.sub_sub, BitVec.sub_sub]
    rfl
  obtain ⟨m1, m2, m3⟩ := mapRegs_law opSei t3
  have mr : ∀ a, (t3.mapRegs opSei).cart.prgRomByte a = s0.cart.prgRomByte a := p3.rom
  generalize t3.mapRegs opSei = t4 at *
  obtain ⟨v1, v2⟩ := vector_law (if taken then 0xFFFA else 0xFFFE) t4 (by cases taken <;> decide)
    (by cases taken <;> decide)
  refine ⟨taken, hn, fun a q => hq a (q2 q).1, rfl, ?_, ?_⟩
  · rw [v1, m1, qr, mr, mr]
    rfl
  · have hsp : t4.regs.sp = t3.regs.sp := by rw [m1]; rfl
    refine ((p3.mono m2 hsp).mono v2 ?_).1
    rw [v1]

/-- A branch: PC alone changes (R130). -/
theorem branch_law (taken : Flags → Bool) (off : Byte) (s : State) :
    (branch taken off (readPc s)).kept = s.kept ∧
      (branch taken off (readPc s)).regs = { s.regs with
        pc := if taken s.regs.p then s.regs.pc + 2 + BitVec.ofInt 16 off.toInt else s.regs.pc + 2 } := by
  have k := (readPc_fetched s).poll.readPc
  have es : sext16 off = BitVec.ofInt 16 off.toInt := by revert off; decide
  unfold branch
  dsimp only
  generalize readPc (poll (readPc s)) = s1 at *
  have epc : s1.regs.pc = s.regs.pc + 2 := by rw [k.1]; rfl
  rw [k.index.2.2.2.2, epc, es]
  have hj : ∀ (u : State) (a : Word), Fetched 2 s u → (u.jump a).kept = s.kept ∧
      (u.jump a).regs = { s.regs with pc := a } :=
    fun u a h => ⟨(jump_kept a u).trans h.2, by rw [jump_regs, h.1]; rfl⟩
  cases taken s.regs.p
  · exact ⟨k.2, k.1⟩
  · rw [if_pos rfl, if_pos rfl]
    split
    · exact hj _ _ k.dummyPc
    · exact hj _ _ (k.dummyPc.poll.read _)

/-- An unstable store: some byte v is stored, which is the value ANDed with the base's high byte plus 1 when no DMA came in
between (R167). -/
theorem storeHigh_law (due : Nat) (value : Regs → Byte) {n : Nat} {s : State} {e : Indexed} {base : Word} {index : Byte}
    (h : Fetched n s e.st) (he : IndexedAt e base index) (hv : value (s.regs.plus n) = value s.regs) :
    ∃ v, (storeHigh due value e).regs = s.regs.plus n ∧
      Stored (if e.crossed then w16 v (loByte e.ea) else e.ea) v s (storeHigh due value e) ∧
      ((cpuRead e.raw e.st).cpuCycle = due → v = value s.regs &&& (hiByte base + 1)) := by
  have k := h.read e.raw
  unfold storeHigh
  dsimp only
  generalize cpuRead e.raw e.st = u at *
  have hu : ∀ d : Nat, Fetched n s { u with draws := d } := fun d => ⟨k.1, k.2⟩
  refine ⟨_, ((hu _).poll.writes _ _).1, ((hu _).poll.writes _ _).2.2, ?_⟩
  intro hd
  rw [if_neg (fun c => c hd), k.1, hv, he.2.2.2]

end Sys2Proof.Machine
end

