-- ==== Sys2Proof/Laws/State.lean ====
section
/-!
SUPPORT. One lemma for each field of the state after each named update of it: what the update writes, and that it leaves
every other field as it was.
-/

namespace Sys2Proof.Machine

/-! ## A register operation -/

@[simp] theorem State.mapRegs_regs (f : Regs → Regs) (s : State) : (s.mapRegs f).regs = f s.regs := rfl
@[simp] theorem State.mapRegs_nmiPending (f : Regs → Regs) (s : State) : (s.mapRegs f).nmiPending = s.nmiPending := rfl
@[simp] theorem State.mapRegs_nmiPrev (f : Regs → Regs) (s : State) : (s.mapRegs f).nmiPrev = s.nmiPrev := rfl
@[simp] theorem State.mapRegs_irqLine (f : Regs → Regs) (s : State) : (s.mapRegs f).irqLine = s.irqLine := rfl
@[simp] theorem State.mapRegs_intNext (f : Regs → Regs) (s : State) : (s.mapRegs f).intNext = s.intNext := rfl
@[simp] theorem State.mapRegs_halted (f : Regs → Regs) (s : State) : (s.mapRegs f).halted = s.halted := rfl
@[simp] theorem State.mapRegs_resetPending (f : Regs → Regs) (s : State) :
    (s.mapRegs f).resetPending = s.resetPending := rfl
@[simp] theorem State.mapRegs_cpuCycle (f : Regs → Regs) (s : State) : (s.mapRegs f).cpuCycle = s.cpuCycle := rfl
@[simp] theorem State.mapRegs_cpuBus (f : Regs → Regs) (s : State) : (s.mapRegs f).cpuBus = s.cpuBus := rfl
@[simp] theorem State.mapRegs_fatal (f : Regs → Regs) (s : State) : (s.mapRegs f).fatal = s.fatal := rfl
@[simp] theorem State.mapRegs_wram (f : Regs → Regs) (s : State) : (s.mapRegs f).wram = s.wram := rfl
@[simp] theorem State.mapRegs_ciram (f : Regs → Regs) (s : State) : (s.mapRegs f).ciram = s.ciram := rfl
@[simp] theorem State.mapRegs_port0 (f : Regs → Regs) (s : State) : (s.mapRegs f).port0 = s.port0 := rfl
@[simp] theorem State.mapRegs_port1 (f : Regs → Regs) (s : State) : (s.mapRegs f).port1 = s.port1 := rfl
@[simp] theorem State.mapRegs_strobe (f : Regs → Regs) (s : State) : (s.mapRegs f).strobe = s.strobe := rfl
@[simp] theorem State.mapRegs_oamDma (f : Regs → Regs) (s : State) : (s.mapRegs f).oamDma = s.oamDma := rfl
@[simp] theorem State.mapRegs_dmcDma (f : Regs → Regs) (s : State) : (s.mapRegs f).dmcDma = s.dmcDma := rfl
@[simp] theorem State.mapRegs_cart (f : Regs → Regs) (s : State) : (s.mapRegs f).cart = s.cart := rfl
@[simp] theorem State.mapRegs_ppu (f : Regs → Regs) (s : State) : (s.mapRegs f).ppu = s.ppu := rfl
@[simp] theorem State.mapRegs_apu (f : Regs → Regs) (s : State) : (s.mapRegs f).apu = s.apu := rfl
@[simp] theorem State.mapRegs_audioOut (f : Regs → Regs) (s : State) : (s.mapRegs f).audioOut = s.audioOut := rfl
@[simp] theorem State.mapRegs_params (f : Regs → Regs) (s : State) : (s.mapRegs f).params = s.params := rfl
@[simp] theorem State.mapRegs_draws (f : Regs → Regs) (s : State) : (s.mapRegs f).draws = s.draws := rfl
@[simp] theorem State.mapRegs_nmiEdges (f : Regs → Regs) (s : State) : (s.mapRegs f).nmiEdges = s.nmiEdges := rfl
@[simp] theorem State.mapRegs_irqCycles (f : Regs → Regs) (s : State) : (s.mapRegs f).irqCycles = s.irqCycles := rfl

/-! ## A jump -/

@[simp] theorem State.jump_regs (a : Word) (s : State) : (s.jump a).regs = { s.regs with pc := a } := rfl
@[simp] theorem State.jump_nmiPending (a : Word) (s : State) : (s.jump a).nmiPending = s.nmiPending := rfl
@[simp] theorem State.jump_nmiPrev (a : Word) (s : State) : (s.jump a).nmiPrev = s.nmiPrev := rfl
@[simp] theorem State.jump_irqLine (a : Word) (s : State) : (s.jump a).irqLine = s.irqLine := rfl
@[simp] theorem State.jump_intNext (a : Word) (s : State) : (s.jump a).intNext = s.intNext := rfl
@[simp] theorem State.jump_halted (a : Word) (s : State) : (s.jump a).halted = s.halted := rfl
@[simp] theorem State.jump_resetPending (a : Word) (s : State) : (s.jump a).resetPending = s.resetPending := rfl
@[simp] theorem State.jump_cpuCycle (a : Word) (s : State) : (s.jump a).cpuCycle = s.cpuCycle := rfl
@[simp] theorem State.jump_cpuBus (a : Word) (s : State) : (s.jump a).cpuBus = s.cpuBus := rfl
@[simp] theorem State.jump_fatal (a : Word) (s : State) : (s.jump a).fatal = s.fatal := rfl
@[simp] theorem State.jump_wram (a : Word) (s : State) : (s.jump a).wram = s.wram := rfl
@[simp] theorem State.jump_ciram (a : Word) (s : State) : (s.jump a).ciram = s.ciram := rfl
@[simp] theorem State.jump_port0 (a : Word) (s : State) : (s.jump a).port0 = s.port0 := rfl
@[simp] theorem State.jump_port1 (a : Word) (s : State) : (s.jump a).port1 = s.port1 := rfl
@[simp] theorem State.jump_strobe (a : Word) (s : State) : (s.jump a).strobe = s.strobe := rfl
@[simp] theorem State.jump_oamDma (a : Word) (s : State) : (s.jump a).oamDma = s.oamDma := rfl
@[simp] theorem State.jump_dmcDma (a : Word) (s : State) : (s.jump a).dmcDma = s.dmcDma := rfl
@[simp] theorem State.jump_cart (a : Word) (s : State) : (s.jump a).cart = s.cart := rfl
@[simp] theorem State.jump_ppu (a : Word) (s : State) : (s.jump a).ppu = s.ppu := rfl
@[simp] theorem State.jump_apu (a : Word) (s : State) : (s.jump a).apu = s.apu := rfl
@[simp] theorem State.jump_audioOut (a : Word) (s : State) : (s.jump a).audioOut = s.audioOut := rfl
@[simp] theorem State.jump_params (a : Word) (s : State) : (s.jump a).params = s.params := rfl
@[simp] theorem State.jump_draws (a : Word) (s : State) : (s.jump a).draws = s.draws := rfl
@[simp] theorem State.jump_nmiEdges (a : Word) (s : State) : (s.jump a).nmiEdges = s.nmiEdges := rfl
@[simp] theorem State.jump_irqCycles (a : Word) (s : State) : (s.jump a).irqCycles = s.irqCycles := rfl

/-! ## A new stack pointer -/

@[simp] theorem State.setSp_regs (v : Byte) (s : State) : (s.setSp v).regs = { s.regs with sp := v } := rfl
@[simp] theorem State.setSp_nmiPending (v : Byte) (s : State) : (s.setSp v).nmiPending = s.nmiPending := rfl
@[simp] theorem State.setSp_nmiPrev (v : Byte) (s : State) : (s.setSp v).nmiPrev = s.nmiPrev := rfl
@[simp] theorem State.setSp_irqLine (v : Byte) (s : State) : (s.setSp v).irqLine = s.irqLine := rfl
@[simp] theorem State.setSp_intNext (v : Byte) (s : State) : (s.setSp v).intNext = s.intNext := rfl
@[simp] theorem State.setSp_halted (v : Byte) (s : State) : (s.setSp v).halted = s.halted := rfl
@[simp] theorem State.setSp_resetPending (v : Byte) (s : State) : (s.setSp v).resetPending = s.resetPending := rfl
@[simp] theorem State.setSp_cpuCycle (v : Byte) (s : State) : (s.setSp v).cpuCycle = s.cpuCycle := rfl
@[simp] theorem State.setSp_cpuBus (v : Byte) (s : State) : (s.setSp v).cpuBus = s.cpuBus := rfl
@[simp] theorem State.setSp_fatal (v : Byte) (s : State) : (s.setSp v).fatal = s.fatal := rfl
@[simp] theorem State.setSp_wram (v : Byte) (s : State) : (s.setSp v).wram = s.wram := rfl
@[simp] theorem State.setSp_ciram (v : Byte) (s : State) : (s.setSp v).ciram = s.ciram := rfl
@[simp] theorem State.setSp_port0 (v : Byte) (s : State) : (s.setSp v).port0 = s.port0 := rfl
@[simp] theorem State.setSp_port1 (v : Byte) (s : State) : (s.setSp v).port1 = s.port1 := rfl
@[simp] theorem State.setSp_strobe (v : Byte) (s : State) : (s.setSp v).strobe = s.strobe := rfl
@[simp] theorem State.setSp_oamDma (v : Byte) (s : State) : (s.setSp v).oamDma = s.oamDma := rfl
@[simp] theorem State.setSp_dmcDma (v : Byte) (s : State) : (s.setSp v).dmcDma = s.dmcDma := rfl
@[simp] theorem State.setSp_cart (v : Byte) (s : State) : (s.setSp v).cart = s.cart := rfl
@[simp] theorem State.setSp_ppu (v : Byte) (s : State) : (s.setSp v).ppu = s.ppu := rfl
@[simp] theorem State.setSp_apu (v : Byte) (s : State) : (s.setSp v).apu = s.apu := rfl
@[simp] theorem State.setSp_audioOut (v : Byte) (s : State) : (s.setSp v).audioOut = s.audioOut := rfl
@[simp] theorem State.setSp_params (v : Byte) (s : State) : (s.setSp v).params = s.params := rfl
@[simp] theorem State.setSp_draws (v : Byte) (s : State) : (s.setSp v).draws = s.draws := rfl
@[simp] theorem State.setSp_nmiEdges (v : Byte) (s : State) : (s.setSp v).nmiEdges = s.nmiEdges := rfl
@[simp] theorem State.setSp_irqCycles (v : Byte) (s : State) : (s.setSp v).irqCycles = s.irqCycles := rfl

/-! ## The byte on the CPU data bus -/

@[simp] theorem drive_regs (v : Byte) (s : State) : (drive v s).regs = s.regs := rfl
@[simp] theorem drive_nmiPending (v : Byte) (s : State) : (drive v s).nmiPending = s.nmiPending := rfl
@[simp] theorem drive_nmiPrev (v : Byte) (s : State) : (drive v s).nmiPrev = s.nmiPrev := rfl
@[simp] theorem drive_irqLine (v : Byte) (s : State) : (drive v s).irqLine = s.irqLine := rfl
@[simp] theorem drive_intNext (v : Byte) (s : State) : (drive v s).intNext = s.intNext := rfl
@[simp] theorem drive_halted (v : Byte) (s : State) : (drive v s).halted = s.halted := rfl
@[simp] theorem drive_resetPending (v : Byte) (s : State) : (drive v s).resetPending = s.resetPending := rfl
@[simp] theorem drive_cpuCycle (v : Byte) (s : State) : (drive v s).cpuCycle = s.cpuCycle := rfl
@[simp] theorem drive_cpuBus (v : Byte) (s : State) : (drive v s).cpuBus = v := rfl
@[simp] theorem drive_fatal (v : Byte) (s : State) : (drive v s).fatal = s.fatal := rfl
@[simp] theorem drive_wram (v : Byte) (s : State) : (drive v s).wram = s.wram := rfl
@[simp] theorem drive_ciram (v : Byte) (s : State) : (drive v s).ciram = s.ciram := rfl
@[simp] theorem drive_port0 (v : Byte) (s : State) : (drive v s).port0 = s.port0 := rfl
@[simp] theorem drive_port1 (v : Byte) (s : State) : (drive v s).port1 = s.port1 := rfl
@[simp] theorem drive_strobe (v : Byte) (s : State) : (drive v s).strobe = s.strobe := rfl
@[simp] theorem drive_oamDma (v : Byte) (s : State) : (drive v s).oamDma = s.oamDma := rfl
@[simp] theorem drive_dmcDma (v : Byte) (s : State) : (drive v s).dmcDma = s.dmcDma := rfl
@[simp] theorem drive_cart (v : Byte) (s : State) : (drive v s).cart = s.cart := rfl
@[simp] theorem drive_ppu (v : Byte) (s : State) : (drive v s).ppu = s.ppu := rfl
@[simp] theorem drive_apu (v : Byte) (s : State) : (drive v s).apu = s.apu := rfl
@[simp] theorem drive_audioOut (v : Byte) (s : State) : (drive v s).audioOut = s.audioOut := rfl
@[simp] theorem drive_params (v : Byte) (s : State) : (drive v s).params = s.params := rfl
@[simp] theorem drive_draws (v : Byte) (s : State) : (drive v s).draws = s.draws := rfl
@[simp] theorem drive_nmiEdges (v : Byte) (s : State) : (drive v s).nmiEdges = s.nmiEdges := rfl
@[simp] theorem drive_irqCycles (v : Byte) (s : State) : (drive v s).irqCycles = s.irqCycles := rfl

/-! ## The byte of a PPU register read -/

@[simp] theorem ppuDrive_regs (v : Byte) (s : State) : (ppuDrive v s).regs = s.regs := rfl
@[simp] theorem ppuDrive_nmiPending (v : Byte) (s : State) : (ppuDrive v s).nmiPending = s.nmiPending := rfl
@[simp] theorem ppuDrive_nmiPrev (v : Byte) (s : State) : (ppuDrive v s).nmiPrev = s.nmiPrev := rfl
@[simp] theorem ppuDrive_irqLine (v : Byte) (s : State) : (ppuDrive v s).irqLine = s.irqLine := rfl
@[simp] theorem ppuDrive_intNext (v : Byte) (s : State) : (ppuDrive v s).intNext = s.intNext := rfl
@[simp] theorem ppuDrive_halted (v : Byte) (s : State) : (ppuDrive v s).halted = s.halted := rfl
@[simp] theorem ppuDrive_resetPending (v : Byte) (s : State) : (ppuDrive v s).resetPending = s.resetPending := rfl
@[simp] theorem ppuDrive_cpuCycle (v : Byte) (s : State) : (ppuDrive v s).cpuCycle = s.cpuCycle := rfl
@[simp] theorem ppuDrive_cpuBus (v : Byte) (s : State) : (ppuDrive v s).cpuBus = v := rfl
@[simp] theorem ppuDrive_fatal (v : Byte) (s : State) : (ppuDrive v s).fatal = s.fatal := rfl
@[simp] theorem ppuDrive_wram (v : Byte) (s : State) : (ppuDrive v s).wram = s.wram := rfl
@[simp] theorem ppuDrive_ciram (v : Byte) (s : State) : (ppuDrive v s).ciram = s.ciram := rfl
@[simp] theorem ppuDrive_port0 (v : Byte) (s : State) : (ppuDrive v s).port0 = s.port0 := rfl
@[simp] theorem ppuDrive_port1 (v : Byte) (s : State) : (ppuDrive v s).port1 = s.port1 := rfl
@[simp] theorem ppuDrive_strobe (v : Byte) (s : State) : (ppuDrive v s).strobe = s.strobe := rfl
@[simp] theorem ppuDrive_oamDma (v : Byte) (s : State) : (ppuDrive v s).oamDma = s.oamDma := rfl
@[simp] theorem ppuDrive_dmcDma (v : Byte) (s : State) : (ppuDrive v s).dmcDma = s.dmcDma := rfl
@[simp] theorem ppuDrive_cart (v : Byte) (s : State) : (ppuDrive v s).cart = s.cart := rfl
@[simp] theorem ppuDrive_ppu (v : Byte) (s : State) : (ppuDrive v s).ppu = { s.ppu with ioLatch := v } := rfl
@[simp] theorem ppuDrive_apu (v : Byte) (s : State) : (ppuDrive v s).apu = s.apu := rfl
@[simp] theorem ppuDrive_audioOut (v : Byte) (s : State) : (ppuDrive v s).audioOut = s.audioOut := rfl
@[simp] theorem ppuDrive_params (v : Byte) (s : State) : (ppuDrive v s).params = s.params := rfl
@[simp] theorem ppuDrive_draws (v : Byte) (s : State) : (ppuDrive v s).draws = s.draws := rfl
@[simp] theorem ppuDrive_nmiEdges (v : Byte) (s : State) : (ppuDrive v s).nmiEdges = s.nmiEdges := rfl
@[simp] theorem ppuDrive_irqCycles (v : Byte) (s : State) : (ppuDrive v s).irqCycles = s.irqCycles := rfl

/-! ## The interrupt poll -/

@[simp] theorem poll_regs (s : State) : (poll s).regs = s.regs := rfl
@[simp] theorem poll_nmiPending (s : State) : (poll s).nmiPending = s.nmiPending := rfl
@[simp] theorem poll_nmiPrev (s : State) : (poll s).nmiPrev = s.nmiPrev := rfl
@[simp] theorem poll_irqLine (s : State) : (poll s).irqLine = s.irqLine := rfl
@[simp] theorem poll_intNext (s : State) : (poll s).intNext = pollResult s := rfl
@[simp] theorem poll_halted (s : State) : (poll s).halted = s.halted := rfl
@[simp] theorem poll_resetPending (s : State) : (poll s).resetPending = s.resetPending := rfl
@[simp] theorem poll_cpuCycle (s : State) : (poll s).cpuCycle = s.cpuCycle := rfl
@[simp] theorem poll_cpuBus (s : State) : (poll s).cpuBus = s.cpuBus := rfl
@[simp] theorem poll_fatal (s : State) : (poll s).fatal = s.fatal := rfl
@[simp] theorem poll_wram (s : State) : (poll s).wram = s.wram := rfl
@[simp] theorem poll_ciram (s : State) : (poll s).ciram = s.ciram := rfl
@[simp] theorem poll_port0 (s : State) : (poll s).port0 = s.port0 := rfl
@[simp] theorem poll_port1 (s : State) : (poll s).port1 = s.port1 := rfl
@[simp] theorem poll_strobe (s : State) : (poll s).strobe = s.strobe := rfl
@[simp] theorem poll_oamDma (s : State) : (poll s).oamDma = s.oamDma := rfl
@[simp] theorem poll_dmcDma (s : State) : (poll s).dmcDma = s.dmcDma := rfl
@[simp] theorem poll_cart (s : State) : (poll s).cart = s.cart := rfl
@[simp] theorem poll_ppu (s : State) : (poll s).ppu = s.ppu := rfl
@[simp] theorem poll_apu (s : State) : (poll s).apu = s.apu := rfl
@[simp] theorem poll_audioOut (s : State) : (poll s).audioOut = s.audioOut := rfl
@[simp] theorem poll_params (s : State) : (poll s).params = s.params := rfl
@[simp] theorem poll_draws (s : State) : (poll s).draws = s.draws := rfl
@[simp] theorem poll_nmiEdges (s : State) : (poll s).nmiEdges = s.nmiEdges := rfl
@[simp] theorem poll_irqCycles (s : State) : (poll s).irqCycles = s.irqCycles := rfl

/-! ## The sampling of the interrupt inputs -/

@[simp] theorem sampleInterrupts_regs (s : State) : (sampleInterrupts s).regs = s.regs := rfl
@[simp] theorem sampleInterrupts_nmiPending (s : State) :
    (sampleInterrupts s).nmiPending = (s.nmiPending || (nmiOutput s && !s.nmiPrev)) := rfl
@[simp] theorem sampleInterrupts_nmiPrev (s : State) : (sampleInterrupts s).nmiPrev = nmiOutput s := rfl
@[simp] theorem sampleInterrupts_irqLine (s : State) : (sampleInterrupts s).irqLine = irqSources s := rfl
@[simp] theorem sampleInterrupts_intNext (s : State) : (sampleInterrupts s).intNext = s.intNext := rfl
@[simp] theorem sampleInterrupts_halted (s : State) : (sampleInterrupts s).halted = s.halted := rfl
@[simp] theorem sampleInterrupts_resetPending (s : State) : (sampleInterrupts s).resetPending = s.resetPending := rfl
@[simp] theorem sampleInterrupts_cpuCycle (s : State) : (sampleInterrupts s).cpuCycle = s.cpuCycle := rfl
@[simp] theorem sampleInterrupts_cpuBus (s : State) : (sampleInterrupts s).cpuBus = s.cpuBus := rfl
@[simp] theorem sampleInterrupts_fatal (s : State) : (sampleInterrupts s).fatal = s.fatal := rfl
@[simp] theorem sampleInterrupts_wram (s : State) : (sampleInterrupts s).wram = s.wram := rfl
@[simp] theorem sampleInterrupts_ciram (s : State) : (sampleInterrupts s).ciram = s.ciram := rfl
@[simp] theorem sampleInterrupts_port0 (s : State) : (sampleInterrupts s).port0 = s.port0 := rfl
@[simp] theorem sampleInterrupts_port1 (s : State) : (sampleInterrupts s).port1 = s.port1 := rfl
@[simp] theorem sampleInterrupts_strobe (s : State) : (sampleInterrupts s).strobe = s.strobe := rfl
@[simp] theorem sampleInterrupts_oamDma (s : State) : (sampleInterrupts s).oamDma = s.oamDma := rfl
@[simp] theorem sampleInterrupts_dmcDma (s : State) : (sampleInterrupts s).dmcDma = s.dmcDma := rfl
@[simp] theorem sampleInterrupts_cart (s : State) : (sampleInterrupts s).cart = s.cart := rfl
@[simp] theorem sampleInterrupts_ppu (s : State) : (sampleInterrupts s).ppu = s.ppu := rfl
@[simp] theorem sampleInterrupts_apu (s : State) : (sampleInterrupts s).apu = s.apu := rfl
@[simp] theorem sampleInterrupts_audioOut (s : State) : (sampleInterrupts s).audioOut = s.audioOut := rfl
@[simp] theorem sampleInterrupts_params (s : State) : (sampleInterrupts s).params = s.params := rfl
@[simp] theorem sampleInterrupts_draws (s : State) : (sampleInterrupts s).draws = s.draws := rfl
@[simp] theorem sampleInterrupts_nmiEdges (s : State) :
    (sampleInterrupts s).nmiEdges = s.nmiEdges + (nmiOutput s && !s.nmiPrev).toNat := rfl
@[simp] theorem sampleInterrupts_irqCycles (s : State) :
    (sampleInterrupts s).irqCycles = s.irqCycles + (irqSources s).toNat := rfl

end Sys2Proof.Machine
end

