-- ==== Sys2Proof/Laws/Timing.lean ====
section
/-!
SUPPORT. How many CPU cycles an access takes, and that an access of a machine with no DMA due leaves none due (R203).
-/

namespace Sys2Proof.Machine

/-- The cycle number, the DMA requests and the sample reader agree. -/
def TimeSame (s t : State) : Prop :=
  t.cpuCycle = s.cpuCycle ∧ t.oamDma = s.oamDma ∧ t.dmcDma = s.dmcDma ∧ t.apu.dmc = s.apu.dmc

theorem TimeSame.rfl {s : State} : TimeSame s s := ⟨Eq.refl _, Eq.refl _, Eq.refl _, Eq.refl _⟩

theorem TimeSame.trans {s t u : State} (h : TimeSame s t) (k : TimeSame t u) : TimeSame s u :=
  ⟨k.1.trans h.1, k.2.1.trans h.2.1, k.2.2.1.trans h.2.2.1, k.2.2.2.trans h.2.2.2⟩

theorem TimeSame.noDma {s t : State} (h : TimeSame s t) (k : NoDma s) : NoDma t :=
  ⟨h.2.1.trans k.1, h.2.2.1.trans k.2.1, by rw [h.2.2.2]; exact k.2.2⟩

/-- Changing the PPU. -/
theorem timeSame_ppu (s : State) (q : Ppu) : TimeSame s { s with ppu := q } := ⟨Eq.refl _, Eq.refl _, Eq.refl _, Eq.refl _⟩

/-! ## One dot -/

theorem bgFetch_time (s : State) : TimeSame s (bgFetch s) := by
  unfold bgFetch
  dsimp only
  split
  · split
    all_goals exact ⟨rfl, rfl, rfl, rfl⟩
  · split <;> exact ⟨rfl, rfl, rfl, rfl⟩

theorem spriteEvalDot_time (s : State) : TimeSame s (spriteEvalDot s) := by
  have hs : ∀ t : State, TimeSame s t → TimeSame s
      (if t.ppu.evalOvfDot = some s.ppu.dot then { t with ppu := { t.ppu with spriteOverflow := true } } else t) := by
    intro t ht
    split <;> exact ht
  unfold spriteEvalDot
  dsimp only
  split
  · apply hs
    split
    · exact ⟨rfl, rfl, rfl, rfl⟩
    · split
      · split <;> exact ⟨rfl, rfl, rfl, rfl⟩
      · exact TimeSame.rfl
  · exact TimeSame.rfl

theorem slotFetch_time (i k : Nat) (s : State) : TimeSame s (slotFetch i k s) := by
  unfold slotFetch
  split
  · exact ⟨rfl, rfl, rfl, rfl⟩
  · split
    · exact ⟨rfl, rfl, rfl, rfl⟩
    · split <;> exact ⟨rfl, rfl, rfl, rfl⟩

theorem spriteFetchDot_time (s : State) : TimeSame s (spriteFetchDot s) := by
  unfold spriteFetchDot
  dsimp only
  split
  · exact (slotFetch_time _ _ s).trans (timeSame_ppu _ _)
  · exact TimeSame.rfl

theorem renderDot_time (s : State) : TimeSame s (renderDot s) := by
  unfold renderDot
  split
  · exact ((((bgFetch_time s).trans (timeSame_ppu _ _)).trans (spriteEvalDot_time _)).trans
      (spriteFetchDot_time _)).trans (timeSame_ppu _ _)
  · exact ⟨rfl, rfl, rfl, rfl⟩

theorem ppuObserve_time (s : State) : TimeSame s (ppuObserve s) := by
  unfold ppuObserve
  split <;> exact ⟨rfl, rfl, rfl, rfl⟩

theorem ppuDot_time (s : State) : TimeSame s (ppuDot s) :=
  (((timeSame_ppu s _).trans (renderDot_time _)).trans (timeSame_ppu _ _)).trans (ppuObserve_time _)

/-- No dot moves the CPU's time. -/
theorem ppuDots_time (n : Nat) (s : State) : TimeSame s (ppuDots n s) := by
  induction n generalizing s with
  | zero => exact TimeSame.rfl
  | succ n ih => exact (ppuDot_time s).trans (ih _)

/-! ## Bus accesses -/

theorem readAccess_time (a : Word) (s : State) : TimeSame s (readAccess a s) := by
  have hs : TimeSame s (readStatus s) := by
    unfold readStatus
    split
    · dsimp only
      split
      · unfold raceNmi
        dsimp only
        split <;> exact ⟨rfl, rfl, rfl, rfl⟩
      · exact ⟨rfl, rfl, rfl, rfl⟩
    · exact ⟨rfl, rfl, rfl, rfl⟩
  have ho : TimeSame s (readOamData s) := by
    unfold readOamData
    split <;> exact ⟨rfl, rfl, rfl, rfl⟩
  have hd : TimeSame s (readData s) := by
    unfold readData
    dsimp only
    split
    · exact ⟨rfl, rfl, rfl, rfl⟩
    · split <;> exact ⟨rfl, rfl, rfl, rfl⟩
  unfold readAccess
  split
  · exact ⟨rfl, rfl, rfl, rfl⟩
  split
  · unfold ppuRegRead
    split
    · exact hs
    split
    · exact ho
    split
    · exact hd
    · exact ⟨rfl, rfl, rfl, rfl⟩
  split
  · exact ⟨rfl, rfl, rfl, rfl⟩
  split
  · unfold readPort0
    dsimp only
    split <;> exact ⟨rfl, rfl, rfl, rfl⟩
  split
  · unfold readPort1
    dsimp only
    split <;> exact ⟨rfl, rfl, rfl, rfl⟩
  split <;> exact ⟨rfl, rfl, rfl, rfl⟩

/-- No write moves the CPU's time. -/
theorem writeAccess_cpuCycle (a : Word) (v : Byte) (s : State) : (writeAccess a v s).cpuCycle = s.cpuCycle := by
  have hp : ∀ (b : PpuAddr) (t : State), (ppuWrite b v t).cpuCycle = t.cpuCycle := by
    intro b t
    unfold ppuWrite
    split
    · rfl
    split <;> rfl
  have hd : ∀ t : State, (writeData v t).cpuCycle = t.cpuCycle := by
    intro t
    unfold writeData
    dsimp only
    split
    · rfl
    split
    · exact hp _ _
    · rfl
  unfold writeAccess routeWrite drive
  dsimp only
  split
  · rfl
  split
  · unfold ppuRegWrite
    dsimp only
    iterate 7
      split
      · rfl
    exact hd _
  split
  · rfl
  split
  · rfl
  split
  · unfold writeStrobe
    split <;> rfl
  split
  · rfl
  split <;> rfl

theorem writeAccess_ram_time {a : Word} (v : Byte) (s : State) (h : a.toNat < 0x2000) : TimeSame s (writeAccess a v s) := by
  unfold writeAccess
  rw [routeWrite_ram v s h]
  exact ⟨rfl, rfl, rfl, rfl⟩

/-! ## The end of a cycle -/

theorem setLength_dmc (ch : Fin 4) (n : Nat) (a : Apu) : (a.setLength ch n).dmc = a.dmc := by
  unfold Apu.setLength
  split
  · rfl
  split
  · rfl
  split <;> rfl

theorem setHalt_dmc (ch : Fin 4) (b : Bool) (a : Apu) : (a.setHalt ch b).dmc = a.dmc := by
  unfold Apu.setHalt
  split
  · rfl
  split
  · rfl
  split <;> rfl

theorem commit_dmc (w : Option LateWrite) (a : Apu) : (a.commit w).dmc = a.dmc := by
  unfold Apu.commit
  split
  · exact setLength_dmc _ _ _
  · exact setHalt_dmc _ _ _
  · rfl
  · rfl

theorem runSeq_dmc (e : SeqStep) (a : Apu) : (a.runSeq e).dmc = a.dmc := by
  unfold Apu.runSeq
  dsimp only
  cases e.quarter <;> cases e.half <;> rfl

theorem sequencer_dmc (a : Apu) : a.sequencer.dmc = a.dmc := by
  unfold Apu.sequencer
  dsimp only
  split
  · rw [commit_dmc, runSeq_dmc]
  · rw [runSeq_dmc, commit_dmc]

theorem outputStep_remaining (d : Dmc) : d.outputStep.remaining = d.remaining := by
  unfold Dmc.outputStep
  dsimp only
  split
  · split <;> rfl
  · rfl

theorem dmc_clockTimer_remaining (d : Dmc) : d.clockTimer.remaining = d.remaining := by
  unfold Dmc.clockTimer
  split
  · exact outputStep_remaining d
  · rfl

theorem timers_remaining (put : Bool) (a : Apu) : (a.timers put).dmc.remaining = a.dmc.remaining := by
  unfold Apu.timers
  dsimp only
  split
  · exact dmc_clockTimer_remaining a.dmc
  · rfl

/-- The end of a cycle moves the CPU's time on by one cycle, requests no OAM DMA and leaves the sample's rest (R286). -/
theorem cycleEnd_time (s : State) :
    (cycleEnd s).cpuCycle = s.cpuCycle + 1 ∧ (cycleEnd s).oamDma = s.oamDma ∧
      (cycleEnd s).apu.dmc.remaining = s.apu.dmc.remaining ∧
      (s.apu.dmc.remaining = 0 → (cycleEnd s).dmcDma = s.dmcDma) := by
  have hd : ∀ u : State, (sampleCheck u).cpuCycle = u.cpuCycle ∧ (sampleCheck u).oamDma = u.oamDma ∧
      (sampleCheck u).apu.dmc = u.apu.dmc ∧ (sampleCheck u).dmcDma = u.dmcDma := by
    intro u
    unfold sampleCheck
    split
    · dsimp only
      split <;> exact ⟨rfl, rfl, rfl, rfl⟩
    · exact ⟨rfl, rfl, rfl, rfl⟩
  have hr : ∀ u : State, (dmcReader u).cpuCycle = u.cpuCycle ∧ (dmcReader u).oamDma = u.oamDma ∧
      (dmcReader u).apu.dmc = u.apu.dmc ∧ (u.apu.dmc.remaining = 0 → (dmcReader u).dmcDma = u.dmcDma) := by
    intro u
    unfold dmcReader
    split
    · rename_i h
      exact ⟨rfl, rfl, rfl, fun k => absurd k h.2⟩
    · exact ⟨rfl, rfl, rfl, fun _ => rfl⟩
  obtain ⟨p1, p2, p3, p4⟩ := ppuDots_time (3 - s.params.ppuPhase.val) s
  generalize hu : ppuDots (3 - s.params.ppuPhase.val) s = u at p1 p2 p3 p4
  generalize hw : ({ u with apu := u.apu.sequencer.timers (isPut u) } : State) = w
  have w1 : w.cpuCycle = s.cpuCycle := by rw [← hw]; exact p1
  have w2 : w.oamDma = s.oamDma := by rw [← hw]; exact p2
  have w3 : w.dmcDma = s.dmcDma := by rw [← hw]; exact p3
  have w4 : w.apu.dmc.remaining = s.apu.dmc.remaining := by
    rw [← hw]
    exact (timers_remaining _ _).trans (by rw [sequencer_dmc, p4])
  obtain ⟨r1, r2, r3, r4⟩ := hr w
  obtain ⟨d1, d2, d3, d4⟩ := hd (dmcReader w)
  have he : cycleEnd s = { sampleInterrupts (sampleCheck (dmcReader w)) with
      cpuCycle := (sampleInterrupts (sampleCheck (dmcReader w))).cpuCycle + 1 } := by
    rw [← hw, ← hu]
    rfl
  rw [he]
  refine ⟨congrArg (· + 1) (d1.trans (r1.trans w1)), d2.trans (r2.trans w2), ?_, fun h => d4.trans ((r4 ?_).trans w3)⟩
  · show (sampleCheck (dmcReader w)).apu.dmc.remaining = _
    rw [d3, r3, w4]
  · rw [w4, h]

/-- A cycle around an access that moves no time takes one cycle. -/
theorem cycle_cpuCycle (f : State → State) (h : ∀ s, (f s).cpuCycle = s.cpuCycle) (s : State) :
    (cycle f s).cpuCycle = s.cpuCycle + 1 := by
  unfold cycle
  rw [(cycleEnd_time _).1, h, (ppuDots_time _ _).1]

/-- A cycle around an access that leaves the requests alone leaves a machine with no DMA due so. -/
theorem cycle_noDma (f : State → State) (h : ∀ s, TimeSame s (f s)) {s : State} (k : NoDma s) : NoDma (cycle f s) := by
  have k1 := ((ppuDots_time s.params.ppuPhase.val s).trans (h _)).noDma k
  obtain ⟨-, e2, e3, e4⟩ := cycleEnd_time (f (ppuDots s.params.ppuPhase.val s))
  exact ⟨e2.trans k1.1, (e4 k1.2.2).trans k1.2.1, e3.trans k1.2.2⟩

/-! ## CPU reads and writes (R203) -/

theorem serviceDma_noDma (a : Word) {s : State} (k : NoDma s) : serviceDma a s = s := by
  have h : serviceOam a s = s := by
    unfold serviceOam
    rw [k.1]
  unfold serviceDma serviceDmc
  rw [h, k.2.1]
  rfl

/-- A CPU read with no DMA due takes one cycle and leaves none due. -/
theorem cpuRead_time (a : Word) {s : State} (k : NoDma s) : (cpuRead a s).cpuCycle = s.cpuCycle + 1 ∧ NoDma (cpuRead a s) := by
  unfold cpuRead
  rw [serviceDma_noDma a k]
  exact ⟨cycle_cpuCycle _ (fun t => (readAccess_time a t).1) s, cycle_noDma _ (readAccess_time a) k⟩

/-- A CPU write takes one cycle. -/
theorem cpuWrite_cpuCycle (a : Word) (v : Byte) (s : State) : (cpuWrite a v s).cpuCycle = s.cpuCycle + 1 :=
  cycle_cpuCycle _ (writeAccess_cpuCycle a v) s

/-- A write to work RAM requests no DMA. -/
theorem cpuWrite_ram_noDma {a : Word} (v : Byte) {s : State} (h : a.toNat < 0x2000) (k : NoDma s) :
    NoDma (cpuWrite a v s) := cycle_noDma _ (fun t => writeAccess_ram_time v t h) k

end Sys2Proof.Machine
end

