-- ==== Sys2Proof/Machine/HostCalls.lean ====
section
/-!
DEFINITION. The host's calls between steps (R293): the controllers, `snapshot()`, `step()` with its cycle count, and
`run_frame()`. No step makes one of them; they are how the outside world acts on the machine (log 15).
-/

namespace Sys2Proof.Machine

/-- `set_controller_state(port, mask)`: the buttons of one port (R200, R293). -/
def setControllerState (port : Fin 2) (mask : Byte) (s : State) : State :=
  if port = 0 then { s with port0 := { s.port0 with buttons := mask } }
  else { s with port1 := { s.port1 with buttons := mask } }

/-- `snapshot()`: a copy of the whole state, with no bus access (R292). -/
def snapshot (s : State) : State := s

/-- The document's `step()`: the state after it and the CPU cycles it ran; 0 and no change once `fatal` is set (R288). -/
def stepCall (s : State) : State × Nat :=
  match step s with
  | .next t => (t, t.cpuCycle - s.cpuCycle)
  | .fault _ => (s, 0)
  | .refused _ => (s, 0)

/-- What `run_frame()` returns (R290). -/
inductive FrameResult where
  /-- the frame published during the call and the sample batches completed since the last one -/
  | frame (published : Option Frame) (batches : List (List Rat))
  /-- a fatal condition was set during the call -/
  | stopped (kind : FatalKind)
  /-- the model's bound on the number of steps ran out (log 17) -/
  | outOfFuel
deriving DecidableEq, Repr

/-- Steps until a frame beyond the first `count` has been published, or `fatal` is set. -/
def runUntilFrame (count : Nat) : Nat → State → FrameResult × State
  | 0, s => (.outOfFuel, s)
  | fuel + 1, s =>
    match s.fatal with
    | some k => (.stopped k, s)
    | none =>
      let t := (stepCall s).1
      match t.fatal with
      | some k => (.stopped k, t)
      | none =>
        if t.ppu.frames ≠ count then (.frame t.ppu.published t.audioOut, { t with audioOut := [] })
        else runUntilFrame count fuel t

/-- `run_frame()`, in at most `fuel` steps (R290, R291). -/
def runFrame (fuel : Nat) (s : State) : FrameResult × State := runUntilFrame s.ppu.frames fuel s

end Sys2Proof.Machine
end

