-- ==== Sys2Proof/Tests/Slice0.lean ====
section
/-!
SUPPORT. Tests: ill-formed terms that the checks refuse, words decoded by hand from R80, single steps and single accesses from
the worked vectors of spec/95_test_vectors.md (each test's name gives its vector), and for each obligation that has hypotheses a
state and operands that meet them.
-/

namespace Sys2Proof.Tests

open Sys2Proof Sys2Proof.Machine

set_option Elab.async false

/-! ## Ill-formed terms -/

/-- An NROM header with these sizes. -/
def nromHeader (prg chr : Nat) : Header :=
  { prgUnits := prg, chrUnits := chr, mapper := 0, vertical := false, battery := false, trainer := false, fourScreen := false }

theorem test_params_well_formed : Params.standard.wellFormed = true := by decide
theorem test_params_no_period : { Params.standard with samplePeriod := 0 }.wellFormed = false := by decide
theorem test_params_no_window : { Params.standard with sampleWindow := 0 }.wellFormed = false := by decide
theorem test_header_well_formed : (nromHeader 2 1).wellFormed = true := by decide
theorem test_header_no_prg : (nromHeader 0 1).wellFormed = false := by decide
theorem test_header_nrom_prg : (nromHeader 3 1).wellFormed = false := by decide
theorem test_header_nrom_chr : (nromHeader 1 2).wellFormed = false := by decide
theorem test_header_mapper : { nromHeader 1 1 with mapper := 1 }.wellFormed = false := by decide
theorem test_header_mmc3 : { nromHeader 32 32 with mapper := 4 }.wellFormed = true := by decide
theorem test_header_mmc3_prg : { nromHeader 33 32 with mapper := 4 }.wellFormed = false := by decide
theorem test_header_mmc3_chr : { nromHeader 32 33 with mapper := 4 }.wellFormed = false := by decide
theorem test_memory_order : ¬Memory.wf [(5, 1), (4, 2)] := by decide
theorem test_memory_twice : ¬Memory.wf [(5, 1), (5, 2)] := by decide
theorem test_memory_size : ¬Memory.below 2048 [(2048, 1)] := by decide
theorem test_decode_nothing : decode [] = .error .noBytes := by decide
theorem test_decode_truncated : decode [0xAD, 0x00] = .error (.truncated 0xAD) := by decide

/-! ## Loading (R206, R207) -/

/-- An image: the magic, PRG units, CHR units, flags 6 and 7, eight ignored bytes, then zeros. -/
def image (prg chr f6 f7 : Byte) (zeros : Nat) : List Byte :=
  [0x4E, 0x45, 0x53, 0x1A, prg, chr, f6, f7, 0, 0, 0, 0, 0, 0, 0, 0] ++ List.replicate zeros 0

theorem image_length (prg chr f6 f7 : Byte) (zeros : Nat) : (image prg chr f6 f7 zeros).length = 16 + zeros := by
  unfold image
  rw [List.length_append, List.length_replicate]
  rfl

theorem test_load_accepts :
    load (image 1 0 0 0 16384) = .ok (buildCartridge (parseHeader (image 1 0 0 0 16384)) (image 1 0 0 0 16384)) := by
  unfold load
  dsimp only
  rw [image_length, if_neg (by decide), if_neg (by decide), if_neg (by decide), if_neg (by decide), if_neg (by decide),
    if_neg (by decide)]

theorem test_load_short : load [0x4E, 0x45, 0x53, 0x1A] = .error .malformedCartridgeImage := by decide
theorem test_load_magic :
    load [0x4E, 0x45, 0x53, 0x1B, 1, 0, 0, 0, 0, 0, 0, 0, 0, 0, 0, 0] = .error .malformedCartridgeImage := by decide
theorem test_load_no_prg : load (image 0 0 0 0 0) = .error .malformedCartridgeImage := by decide
theorem test_load_truncated : load (image 1 0 0 0 0) = .error .malformedCartridgeImage := by decide
theorem test_load_mapper : load (image 1 0 0x10 0 16384) = .error (.unsupportedMapper 1) := by
  unfold load
  dsimp only
  rw [image_length, if_neg (by decide), if_neg (by decide), if_neg (by decide), if_neg (by decide), if_neg (by decide),
    if_pos (by decide)]
  rfl
theorem test_header_fields :
    parseHeader (image 2 1 0x4D 0 0) =
      { prgUnits := 2, chrUnits := 1, mapper := 4, vertical := true, battery := false, trainer := true,
        fourScreen := true } := by decide

/-! ## Words decoded (R80), one of each row of the map -/

theorem test_word_brk : decodeTableWord 8 0x00 = some .brk := by decide
theorem test_word_ora_izx : decodeTableWord 16 0xFF01 = some (.oraIzx 0xFF) := by decide
theorem test_word_bpl : decodeTableWord 16 0x8010 = some (.bpl 0x80) := by decide
theorem test_word_jsr : decodeTableWord 24 0xC00020 = some (.jsr 0x00 0xC0) := by decide
theorem test_word_and_zpx : decodeTableWord 16 0x1035 = some (.andZpx 0x10) := by decide
theorem test_word_rti : decodeTableWord 8 0x40 = some .rti := by decide
theorem test_word_lsr_abs : decodeTableWord 24 0x03004E = some (.lsrAbs 0x00 0x03) := by decide
theorem test_word_eor_aby : decodeTableWord 24 0x12FF59 = some (.eorAby 0xFF 0x12) := by decide
theorem test_word_rts : decodeTableWord 8 0x60 = some .rts := by decide
theorem test_word_ror_acc : decodeTableWord 8 0x6A = some .rorAcc := by decide
theorem test_word_sei : decodeTableWord 8 0x78 = some .sei := by decide
theorem test_word_sta_izx : decodeTableWord 16 0x2081 = some (.staIzx 0x20) := by decide
theorem test_word_stx_zpy : decodeTableWord 16 0xF096 = some (.stxZpy 0xF0) := by decide
theorem test_word_ldy_imm : decodeTableWord 16 0x01A0 = some (.ldyImm 0x01) := by decide
theorem test_word_ldx_aby : decodeTableWord 24 0x02FFBE = some (.ldxAby 0xFF 0x02) := by decide
theorem test_word_cmp_abs : decodeTableWord 24 0x0300CD = some (.cmpAbs 0x00 0x03) := by decide
theorem test_word_dec_zpx : decodeTableWord 16 0x10D6 = some (.decZpx 0x10) := by decide
theorem test_word_sbc_imm : decodeTableWord 16 0x7FE9 = some (.sbcImm 0x7F) := by decide
theorem test_word_isc_abx : decodeTableWord 24 0x0300FF = some (.iscAbx 0x00 0x03) := by decide
theorem test_word_tas : decodeTableWord 24 0x02F09B = some (.tasAby 0xF0 0x02) := by decide
theorem test_encode_jmp : encode (.jmpAbs 0x34 0x12) = [0x4C, 0x34, 0x12] := by decide

/-! ## One step: vectors V1 to V179 and I1 to I3 of 95_test_vectors.md -/

/-- Registers, the flags as the bits N V D I Z C. -/
def regsOf (a x y sp : Byte) (pc : Word) (f : BitVec 6) : Regs :=
  { a := a, x := x, y := y, sp := sp, pc := pc
    p := { n := f.getLsbD 5, v := f.getLsbD 4, d := f.getLsbD 3, i := f.getLsbD 2, z := f.getLsbD 1, c := f.getLsbD 0 } }

/-- A state at an instruction boundary, with these registers, these cells of work RAM and these of the 16 KiB PRG ROM. -/
def start (r : Regs) (ram rom : List (Nat × Byte)) : State :=
  { State.reset with
    resetPending := false
    regs := r
    wram := ram.foldl (fun m p => m.set p.1 p.2) []
    cart := { Cartridge.blank with prgRom := rom.foldl (fun m p => m.set (p.1 % 16384) p.2) [] } }

/-- One step: the registers, the cycles it ran, and whether these cells of work RAM then hold these bytes. -/
def ran (s : State) (cells : List (Nat × Byte)) : Option (Regs × Nat × Bool) :=
  match step s with
  | .next t => some (t.regs, t.cpuCycle, cells.all (fun p => t.wram.get? p.1 == some p.2))
  | .fault _ => none
  | .refused _ => none

theorem test_v8_lda :
    ran (start (regsOf 0x00 0x00 0x00 0xFD 0x0200 0b000100)
      [(0x0000, 0x03), (0x00FF, 0x34), (0x0334, 0xC3), (0x0200, 0xA1), (0x0201, 0xFF)] []) [] =
      some (regsOf 0xC3 0x00 0x00 0xFD 0x0202 0b100100, 6, true) := by
  decide +kernel
theorem test_v15_ldx :
    ran (start (regsOf 0x00 0x00 0x01 0xFD 0x0200 0b000100)
      [(0x0300, 0x80), (0x0200, 0xBE), (0x0201, 0xFF), (0x0202, 0x02)] []) [] =
      some (regsOf 0x00 0x80 0x01 0xFD 0x0203 0b100100, 5, true) := by
  decide +kernel
theorem test_v20_ldy :
    ran (start (regsOf 0x00 0x80 0x00 0xFD 0x0200 0b000100)
      [(0x0400, 0x01), (0x0200, 0xBC), (0x0201, 0x80), (0x0202, 0x03)] []) [] =
      some (regsOf 0x00 0x80 0x01 0xFD 0x0203 0b000100, 5, true) := by
  decide +kernel
theorem test_v26_sta :
    ran (start (regsOf 0x44 0x02 0x00 0xFD 0x0200 0b000100)
      [(0x0022, 0x00), (0x0023, 0x04), (0x0200, 0x81), (0x0201, 0x20)] []) [(0x0400, 0x44)] =
      some (regsOf 0x44 0x02 0x00 0xFD 0x0202 0b000100, 6, true) := by
  decide +kernel
theorem test_v30_stx :
    ran (start (regsOf 0x00 0x01 0x00 0xFD 0x0200 0b000100)
      [(0x0200, 0x8E), (0x0201, 0x00), (0x0202, 0x1A)] []) [(0x0200, 0x01)] =
      some (regsOf 0x00 0x01 0x00 0xFD 0x0203 0b000100, 4, true) := by
  decide +kernel
theorem test_v32_sty :
    ran (start (regsOf 0x00 0x01 0xFF 0xFD 0x0200 0b000100)
      [(0x0200, 0x94), (0x0201, 0xFF)] []) [(0x0000, 0xFF)] =
      some (regsOf 0x00 0x01 0xFF 0xFD 0x0202 0b000100, 4, true) := by
  decide +kernel
theorem test_v34_tax :
    ran (start (regsOf 0x00 0x12 0x00 0xFD 0x0200 0b000100)
      [(0x0200, 0xAA)] []) [] =
      some (regsOf 0x00 0x00 0x00 0xFD 0x0201 0b000110, 2, true) := by
  decide +kernel
theorem test_v35_tay :
    ran (start (regsOf 0x80 0x00 0x00 0xFD 0x0200 0b000100)
      [(0x0200, 0xA8)] []) [] =
      some (regsOf 0x80 0x00 0x80 0xFD 0x0201 0b100100, 2, true) := by
  decide +kernel
theorem test_v36_txa :
    ran (start (regsOf 0x80 0x7F 0x00 0xFD 0x0200 0b100100)
      [(0x0200, 0x8A)] []) [] =
      some (regsOf 0x7F 0x7F 0x00 0xFD 0x0201 0b000100, 2, true) := by
  decide +kernel
theorem test_v37_tya :
    ran (start (regsOf 0x01 0x00 0x00 0xFD 0x0200 0b000100)
      [(0x0200, 0x98)] []) [] =
      some (regsOf 0x00 0x00 0x00 0xFD 0x0201 0b000110, 2, true) := by
  decide +kernel
theorem test_v38_tsx :
    ran (start (regsOf 0x00 0x00 0x00 0xFD 0x0200 0b000100)
      [(0x0200, 0xBA)] []) [] =
      some (regsOf 0x00 0xFD 0x00 0xFD 0x0201 0b100100, 2, true) := by
  decide +kernel
theorem test_v39_txs :
    ran (start (regsOf 0x00 0x00 0x00 0xFD 0x0200 0b100100)
      [(0x0200, 0x9A)] []) [] =
      some (regsOf 0x00 0x00 0x00 0x00 0x0201 0b100100, 2, true) := by
  decide +kernel
theorem test_v40_pha :
    ran (start (regsOf 0xAB 0x00 0x00 0x00 0x0200 0b000100)
      [(0x0200, 0x48)] []) [(0x0100, 0xAB)] =
      some (regsOf 0xAB 0x00 0x00 0xFF 0x0201 0b000100, 3, true) := by
  decide +kernel
theorem test_v42_php :
    ran (start (regsOf 0x00 0x00 0x00 0xFD 0x0200 0b000100)
      [(0x0200, 0x08)] []) [(0x01FD, 0x34)] =
      some (regsOf 0x00 0x00 0x00 0xFC 0x0201 0b000100, 3, true) := by
  decide +kernel
theorem test_v43_pla :
    ran (start (regsOf 0x00 0x00 0x00 0xFF 0x0200 0b000100)
      [(0x0100, 0x00), (0x0200, 0x68)] []) [] =
      some (regsOf 0x00 0x00 0x00 0x00 0x0201 0b000110, 4, true) := by
  decide +kernel
theorem test_v46_plp :
    ran (start (regsOf 0x00 0x00 0x00 0xFC 0x0200 0b111111)
      [(0x01FD, 0x30), (0x0200, 0x28)] []) [] =
      some (regsOf 0x00 0x00 0x00 0xFD 0x0201 0b000000, 4, true) := by
  decide +kernel
theorem test_v48_adc :
    ran (start (regsOf 0xFF 0x00 0x00 0xFD 0x0200 0b000100)
      [(0x0200, 0x69), (0x0201, 0x01)] []) [] =
      some (regsOf 0x00 0x00 0x00 0xFD 0x0202 0b000111, 2, true) := by
  decide +kernel
theorem test_v52_adc :
    ran (start (regsOf 0x09 0x00 0x00 0xFD 0x0200 0b001100)
      [(0x0200, 0x69), (0x0201, 0x01)] []) [] =
      some (regsOf 0x0A 0x00 0x00 0xFD 0x0202 0b001100, 2, true) := by
  decide +kernel
theorem test_v61_sbc :
    ran (start (regsOf 0x10 0x00 0x00 0xFD 0x0200 0b001101)
      [(0x0200, 0xE9), (0x0201, 0x01)] []) [] =
      some (regsOf 0x0F 0x00 0x00 0xFD 0x0202 0b001101, 2, true) := by
  decide +kernel
theorem test_v65_and :
    ran (start (regsOf 0xFF 0x00 0x00 0xFD 0x0200 0b000100)
      [(0x0010, 0x00), (0x0011, 0x03), (0x0300, 0x3C), (0x0200, 0x31), (0x0201, 0x10)] []) [] =
      some (regsOf 0x3C 0x00 0x00 0xFD 0x0202 0b000100, 5, true) := by
  decide +kernel
theorem test_v68_ora :
    ran (start (regsOf 0x01 0x00 0x00 0xFD 0x0200 0b000100)
      [(0x0010, 0x00), (0x0011, 0x03), (0x0300, 0x02), (0x0200, 0x01), (0x0201, 0x10)] []) [] =
      some (regsOf 0x03 0x00 0x00 0xFD 0x0202 0b000100, 6, true) := by
  decide +kernel
theorem test_v69_eor :
    ran (start (regsOf 0xFF 0x00 0x00 0xFD 0x0200 0b000100)
      [(0x0200, 0x49), (0x0201, 0xFF)] []) [] =
      some (regsOf 0x00 0x00 0x00 0xFD 0x0202 0b000110, 2, true) := by
  decide +kernel
theorem test_v72_bit :
    ran (start (regsOf 0xFF 0x00 0x00 0xFD 0x0200 0b110100)
      [(0x0300, 0x01), (0x0200, 0x2C), (0x0201, 0x00), (0x0202, 0x03)] []) [] =
      some (regsOf 0xFF 0x00 0x00 0xFD 0x0203 0b000100, 4, true) := by
  decide +kernel
theorem test_v77_cmp :
    ran (start (regsOf 0x00 0x01 0x00 0xFD 0x0200 0b000100)
      [(0x0011, 0x00), (0x0200, 0xD5), (0x0201, 0x10)] []) [] =
      some (regsOf 0x00 0x01 0x00 0xFD 0x0202 0b000111, 4, true) := by
  decide +kernel
theorem test_v79_cpx :
    ran (start (regsOf 0x00 0x00 0x00 0xFD 0x0200 0b000100)
      [(0x0010, 0x01), (0x0200, 0xE4), (0x0201, 0x10)] []) [] =
      some (regsOf 0x00 0x00 0x00 0xFD 0x0202 0b100100, 3, true) := by
  decide +kernel
theorem test_v81_cpy :
    ran (start (regsOf 0x00 0x00 0x7F 0xFD 0x0200 0b000100)
      [(0x0300, 0x80), (0x0200, 0xCC), (0x0201, 0x00), (0x0202, 0x03)] []) [] =
      some (regsOf 0x00 0x00 0x7F 0xFD 0x0203 0b100100, 4, true) := by
  decide +kernel
theorem test_v85_inc :
    ran (start (regsOf 0x00 0x01 0x00 0xFD 0x0200 0b000100)
      [(0x0301, 0x00), (0x0200, 0xFE), (0x0201, 0x00), (0x0202, 0x03)] []) [(0x0301, 0x01)] =
      some (regsOf 0x00 0x01 0x00 0xFD 0x0203 0b000100, 7, true) := by
  decide +kernel
theorem test_v88_dec :
    ran (start (regsOf 0x00 0x01 0x00 0xFD 0x0200 0b000100)
      [(0x0300, 0x80), (0x0200, 0xDE), (0x0201, 0xFF), (0x0202, 0x02)] []) [(0x0300, 0x7F)] =
      some (regsOf 0x00 0x01 0x00 0xFD 0x0203 0b000100, 7, true) := by
  decide +kernel
theorem test_v89_inx :
    ran (start (regsOf 0x00 0xFF 0x00 0xFD 0x0200 0b000100)
      [(0x0200, 0xE8)] []) [] =
      some (regsOf 0x00 0x00 0x00 0xFD 0x0201 0b000110, 2, true) := by
  decide +kernel
theorem test_v91_iny :
    ran (start (regsOf 0x00 0x00 0x00 0xFD 0x0200 0b000100)
      [(0x0200, 0xC8)] []) [] =
      some (regsOf 0x00 0x00 0x01 0xFD 0x0201 0b000100, 2, true) := by
  decide +kernel
theorem test_v92_dex :
    ran (start (regsOf 0x00 0x00 0x00 0xFD 0x0200 0b000100)
      [(0x0200, 0xCA)] []) [] =
      some (regsOf 0x00 0xFF 0x00 0xFD 0x0201 0b100100, 2, true) := by
  decide +kernel
theorem test_v94_dey :
    ran (start (regsOf 0x00 0x00 0x80 0xFD 0x0200 0b000100)
      [(0x0200, 0x88)] []) [] =
      some (regsOf 0x00 0x00 0x7F 0xFD 0x0201 0b000100, 2, true) := by
  decide +kernel
theorem test_v98_asl :
    ran (start (regsOf 0x00 0x00 0x00 0xFD 0x0200 0b000100)
      [(0x0300, 0x01), (0x0200, 0x1E), (0x0201, 0x00), (0x0202, 0x03)] []) [(0x0300, 0x02)] =
      some (regsOf 0x00 0x00 0x00 0xFD 0x0203 0b000100, 7, true) := by
  decide +kernel
theorem test_v101_lsr :
    ran (start (regsOf 0x00 0x00 0x00 0xFD 0x0200 0b000100)
      [(0x0010, 0x03), (0x0200, 0x46), (0x0201, 0x10)] []) [(0x0010, 0x01)] =
      some (regsOf 0x00 0x00 0x00 0xFD 0x0202 0b000101, 5, true) := by
  decide +kernel
theorem test_v104_rol :
    ran (start (regsOf 0x00 0x00 0x00 0xFD 0x0200 0b000101)
      [(0x0010, 0x00), (0x0200, 0x26), (0x0201, 0x10)] []) [(0x0010, 0x01)] =
      some (regsOf 0x00 0x00 0x00 0xFD 0x0202 0b000100, 5, true) := by
  decide +kernel
theorem test_v108_ror :
    ran (start (regsOf 0x00 0x01 0x00 0xFD 0x0200 0b000101)
      [(0x0300, 0x01), (0x0200, 0x7E), (0x0201, 0xFF), (0x0202, 0x02)] []) [(0x0300, 0x80)] =
      some (regsOf 0x00 0x01 0x00 0xFD 0x0203 0b100101, 7, true) := by
  decide +kernel
theorem test_v110_jmp :
    ran (start (regsOf 0x00 0x00 0x00 0xFD 0x0200 0b000100)
      [(0x0300, 0x12), (0x03FF, 0x34), (0x0400, 0x56), (0x0200, 0x6C), (0x0201, 0xFF), (0x0202, 0x03)] []) [] =
      some (regsOf 0x00 0x00 0x00 0xFD 0x1234 0b000100, 5, true) := by
  decide +kernel
theorem test_v112_jsr :
    ran (start (regsOf 0x00 0x00 0x00 0xFD 0x0600 0b000100)
      [(0x0600, 0x20), (0x0601, 0x00), (0x0602, 0x80)] []) [(0x01FC, 0x02), (0x01FD, 0x06)] =
      some (regsOf 0x00 0x00 0x00 0xFB 0x8000 0b000100, 6, true) := by
  decide +kernel
theorem test_v114_rts :
    ran (start (regsOf 0x00 0x00 0x00 0xFE 0x0200 0b000100)
      [(0x0100, 0x07), (0x01FF, 0xFF), (0x0200, 0x60)] []) [] =
      some (regsOf 0x00 0x00 0x00 0x00 0x0800 0b000100, 6, true) := by
  decide +kernel
theorem test_v117_bne :
    ran (start (regsOf 0x00 0x00 0x00 0xFD 0x02F0 0b000100)
      [(0x02F0, 0xD0), (0x02F1, 0x20)] []) [] =
      some (regsOf 0x00 0x00 0x00 0xFD 0x0312 0b000100, 4, true) := by
  decide +kernel
theorem test_v118_beq :
    ran (start (regsOf 0x00 0x00 0x00 0xFD 0x0202 0b000110)
      [(0x0202, 0xF0), (0x0203, 0xFC)] []) [] =
      some (regsOf 0x00 0x00 0x00 0xFD 0x0200 0b000110, 3, true) := by
  decide +kernel
theorem test_v119_bvc :
    ran (start (regsOf 0x00 0x00 0x00 0xFD 0x0200 0b000100)
      [(0x0200, 0x50), (0x0201, 0xFE)] []) [] =
      some (regsOf 0x00 0x00 0x00 0xFD 0x0200 0b000100, 3, true) := by
  decide +kernel
theorem test_v120_bvs :
    ran (start (regsOf 0x00 0x00 0x00 0xFD 0x0200 0b010100)
      [(0x0200, 0x70), (0x0201, 0x80)] []) [] =
      some (regsOf 0x00 0x00 0x00 0xFD 0x0182 0b010100, 4, true) := by
  decide +kernel
theorem test_v121_bpl :
    ran (start (regsOf 0x00 0x00 0x00 0xFD 0x0200 0b000100)
      [(0x0200, 0x10), (0x0201, 0x7F)] []) [] =
      some (regsOf 0x00 0x00 0x00 0xFD 0x0281 0b000100, 3, true) := by
  decide +kernel
theorem test_v123_bmi :
    ran (start (regsOf 0x00 0x00 0x00 0xFD 0x0200 0b100100)
      [(0x0200, 0x30), (0x0201, 0x10)] []) [] =
      some (regsOf 0x00 0x00 0x00 0xFD 0x0212 0b100100, 3, true) := by
  decide +kernel
theorem test_v124_bcc :
    ran (start (regsOf 0x00 0x00 0x00 0xFD 0x0200 0b000100)
      [(0x0200, 0x90), (0x0201, 0x10)] []) [] =
      some (regsOf 0x00 0x00 0x00 0xFD 0x0212 0b000100, 3, true) := by
  decide +kernel
theorem test_v126_bcs :
    ran (start (regsOf 0x00 0x00 0x00 0xFD 0x0200 0b000101)
      [(0x0200, 0xB0), (0x0201, 0x10)] []) [] =
      some (regsOf 0x00 0x00 0x00 0xFD 0x0212 0b000101, 3, true) := by
  decide +kernel
theorem test_v127_brk :
    ran (start (regsOf 0x00 0x00 0x00 0xFD 0x0300 0b000010)
      [(0x0300, 0x00), (0x0301, 0xEA)] [(0xFFFE, 0x00), (0xFFFF, 0x90)]) [(0x01FB, 0x32), (0x01FC, 0x02), (0x01FD, 0x03)] =
      some (regsOf 0x00 0x00 0x00 0xFA 0x9000 0b000110, 7, true) := by
  decide +kernel
theorem test_v128_rti :
    ran (start (regsOf 0x00 0x00 0x00 0xFA 0x0200 0b000100)
      [(0x01FB, 0x33), (0x01FC, 0x02), (0x01FD, 0x03), (0x0200, 0x40)] []) [] =
      some (regsOf 0x00 0x00 0x00 0xFD 0x0302 0b000011, 6, true) := by
  decide +kernel
theorem test_v130_clc :
    ran (start (regsOf 0x00 0x00 0x00 0xFD 0x0200 0b000101)
      [(0x0200, 0x18)] []) [] =
      some (regsOf 0x00 0x00 0x00 0xFD 0x0201 0b000100, 2, true) := by
  decide +kernel
theorem test_v131_sec :
    ran (start (regsOf 0x00 0x00 0x00 0xFD 0x0200 0b000100)
      [(0x0200, 0x38)] []) [] =
      some (regsOf 0x00 0x00 0x00 0xFD 0x0201 0b000101, 2, true) := by
  decide +kernel
theorem test_v132_cli :
    ran (start (regsOf 0x00 0x00 0x00 0xFD 0x0200 0b000100)
      [(0x0200, 0x58)] []) [] =
      some (regsOf 0x00 0x00 0x00 0xFD 0x0201 0b000000, 2, true) := by
  decide +kernel
theorem test_v133_sei :
    ran (start (regsOf 0x00 0x00 0x00 0xFD 0x0200 0b000000)
      [(0x0200, 0x78)] []) [] =
      some (regsOf 0x00 0x00 0x00 0xFD 0x0201 0b000100, 2, true) := by
  decide +kernel
theorem test_v134_clv :
    ran (start (regsOf 0x00 0x00 0x00 0xFD 0x0200 0b010100)
      [(0x0200, 0xB8)] []) [] =
      some (regsOf 0x00 0x00 0x00 0xFD 0x0201 0b000100, 2, true) := by
  decide +kernel
theorem test_v135_cld :
    ran (start (regsOf 0x00 0x00 0x00 0xFD 0x0200 0b001100)
      [(0x0200, 0xD8)] []) [] =
      some (regsOf 0x00 0x00 0x00 0xFD 0x0201 0b000100, 2, true) := by
  decide +kernel
theorem test_v136_sed :
    ran (start (regsOf 0x00 0x00 0x00 0xFD 0x0200 0b000100)
      [(0x0200, 0xF8)] []) [] =
      some (regsOf 0x00 0x00 0x00 0xFD 0x0201 0b001100, 2, true) := by
  decide +kernel
theorem test_v138_jam :
    ran (start (regsOf 0x00 0x00 0x00 0xFD 0x0200 0b000100)
      [(0x0200, 0x02)] []) [] =
      some (regsOf 0x00 0x00 0x00 0xFD 0x0201 0b000100, 1, true) := by
  decide +kernel
theorem test_v144_nop :
    ran (start (regsOf 0x00 0x01 0x00 0xFD 0x0200 0b000100)
      [(0x0200, 0x1C), (0x0201, 0xFF), (0x0202, 0x02)] []) [] =
      some (regsOf 0x00 0x01 0x00 0xFD 0x0203 0b000100, 5, true) := by
  decide +kernel
theorem test_v147_slo :
    ran (start (regsOf 0x00 0x00 0x01 0xFD 0x0200 0b000100)
      [(0x0300, 0x40), (0x0200, 0x1B), (0x0201, 0xFF), (0x0202, 0x02)] []) [(0x0300, 0x80)] =
      some (regsOf 0x80 0x00 0x01 0xFD 0x0203 0b100100, 7, true) := by
  decide +kernel
theorem test_v148_rla :
    ran (start (regsOf 0xFF 0x00 0x00 0xFD 0x0200 0b000101)
      [(0x0010, 0x80), (0x0200, 0x27), (0x0201, 0x10)] []) [(0x0010, 0x01)] =
      some (regsOf 0x01 0x00 0x00 0xFD 0x0202 0b000101, 5, true) := by
  decide +kernel
theorem test_v149_sre :
    ran (start (regsOf 0xFF 0x00 0x00 0xFD 0x0200 0b000100)
      [(0x0010, 0x03), (0x0200, 0x47), (0x0201, 0x10)] []) [(0x0010, 0x01)] =
      some (regsOf 0xFE 0x00 0x00 0xFD 0x0202 0b100101, 5, true) := by
  decide +kernel
theorem test_v150_rra :
    ran (start (regsOf 0x05 0x00 0x00 0xFD 0x0200 0b000100)
      [(0x0010, 0x01), (0x0200, 0x67), (0x0201, 0x10)] []) [(0x0010, 0x00)] =
      some (regsOf 0x06 0x00 0x00 0xFD 0x0202 0b000100, 5, true) := by
  decide +kernel
theorem test_v153_dcp :
    ran (start (regsOf 0x00 0x00 0x00 0xFD 0x0200 0b000100)
      [(0x0010, 0x00), (0x0011, 0x03), (0x0300, 0x00), (0x0200, 0xD3), (0x0201, 0x10)] []) [(0x0300, 0xFF)] =
      some (regsOf 0x00 0x00 0x00 0xFD 0x0202 0b000100, 8, true) := by
  decide +kernel
theorem test_v155_isc :
    ran (start (regsOf 0x80 0x00 0x00 0xFD 0x0200 0b000101)
      [(0x0010, 0x00), (0x0011, 0x03), (0x0300, 0x00), (0x0200, 0xE3), (0x0201, 0x10)] []) [(0x0300, 0x01)] =
      some (regsOf 0x7F 0x00 0x00 0xFD 0x0202 0b010101, 8, true) := by
  decide +kernel
theorem test_v158_sax :
    ran (start (regsOf 0x33 0x02 0x00 0xFD 0x0200 0b000100)
      [(0x0012, 0x00), (0x0013, 0x03), (0x0200, 0x83), (0x0201, 0x10)] []) [(0x0300, 0x02)] =
      some (regsOf 0x33 0x02 0x00 0xFD 0x0202 0b000100, 6, true) := by
  decide +kernel
theorem test_v161_lax :
    ran (start (regsOf 0x00 0x00 0x02 0xFD 0x0200 0b000100)
      [(0x0010, 0x00), (0x0011, 0x03), (0x0302, 0x7E), (0x0200, 0xB3), (0x0201, 0x10)] []) [] =
      some (regsOf 0x7E 0x7E 0x02 0xFD 0x0202 0b000100, 5, true) := by
  decide +kernel
theorem test_v163_anc :
    ran (start (regsOf 0xFF 0x00 0x00 0xFD 0x0200 0b000101)
      [(0x0200, 0x2B), (0x0201, 0x7F)] []) [] =
      some (regsOf 0x7F 0x00 0x00 0xFD 0x0202 0b000100, 2, true) := by
  decide +kernel
theorem test_v164_alr :
    ran (start (regsOf 0xFF 0x00 0x00 0xFD 0x0200 0b000100)
      [(0x0200, 0x4B), (0x0201, 0x03)] []) [] =
      some (regsOf 0x01 0x00 0x00 0xFD 0x0202 0b000101, 2, true) := by
  decide +kernel
theorem test_v165_arr :
    ran (start (regsOf 0x80 0x00 0x00 0xFD 0x0200 0b000100)
      [(0x0200, 0x6B), (0x0201, 0xFF)] []) [] =
      some (regsOf 0x40 0x00 0x00 0xFD 0x0202 0b010101, 2, true) := by
  decide +kernel
theorem test_v170_sbx :
    ran (start (regsOf 0x0F 0xF3 0x00 0xFD 0x0200 0b000100)
      [(0x0200, 0xCB), (0x0201, 0x01)] []) [] =
      some (regsOf 0x0F 0x02 0x00 0xFD 0x0202 0b000101, 2, true) := by
  decide +kernel
theorem test_v172_usbc :
    ran (start (regsOf 0x03 0x00 0x00 0xFD 0x0200 0b000101)
      [(0x0200, 0xEB), (0x0201, 0x01)] []) [] =
      some (regsOf 0x02 0x00 0x00 0xFD 0x0202 0b000101, 2, true) := by
  decide +kernel
theorem test_v173_las :
    ran (start (regsOf 0x00 0x00 0x00 0x3F 0x0200 0b000100)
      [(0x0300, 0xF0), (0x0200, 0xBB), (0x0201, 0x00), (0x0202, 0x03)] []) [] =
      some (regsOf 0x30 0x30 0x00 0x30 0x0203 0b000100, 4, true) := by
  decide +kernel
theorem test_v176_sha :
    ran (start (regsOf 0x0F 0xFF 0x00 0xFD 0x0300 0b000100)
      [(0x0010, 0x00), (0x0011, 0x04), (0x0300, 0x93), (0x0301, 0x10)] []) [(0x0400, 0x05)] =
      some (regsOf 0x0F 0xFF 0x00 0xFD 0x0302 0b000100, 6, true) := by
  decide +kernel
theorem test_v177_shx :
    ran (start (regsOf 0x00 0x01 0x01 0xFD 0x0500 0b000100)
      [(0x0500, 0x9E), (0x0501, 0xFF), (0x0502, 0x02)] []) [(0x0100, 0x01)] =
      some (regsOf 0x00 0x01 0x01 0xFD 0x0503 0b000100, 5, true) := by
  decide +kernel
theorem test_v178_shy :
    ran (start (regsOf 0x00 0x00 0xFF 0xFD 0x0500 0b000100)
      [(0x0500, 0x9C), (0x0501, 0x00), (0x0502, 0x03)] []) [(0x0300, 0x04)] =
      some (regsOf 0x00 0x00 0xFF 0xFD 0x0503 0b000100, 5, true) := by
  decide +kernel
theorem test_v179_tas :
    ran (start (regsOf 0xF0 0x3F 0x00 0xFD 0x0300 0b000100)
      [(0x0300, 0x9B), (0x0301, 0x00), (0x0302, 0x0F)] []) [(0x0700, 0x10)] =
      some (regsOf 0xF0 0x3F 0x00 0x30 0x0303 0b000100, 5, true) := by
  decide +kernel

/-- I1: an IRQ chosen by the last poll. -/
theorem test_i1_irq :
    ran { start (regsOf 0 0 0 0xFD 0x0234 0b100001) [(0x0234, 0xEA)] [(0xFFFE, 0x00), (0xFFFF, 0x90)] with
        intNext := some .irq } [(0x01FB, 0xA1), (0x01FC, 0x34), (0x01FD, 0x02)] =
      some (regsOf 0 0 0 0xFA 0x9000 0b100101, 7, true) := by
  decide +kernel
/-- I2: an NMI, the stack wrapping in page one. -/
theorem test_i2_nmi :
    ran { start (regsOf 0 0 0 0x01 0x8123 0b011000) [] [(0xFFFA, 0x00), (0xFFFB, 0xA0)] with intNext := some .nmi }
        [(0x0100, 0x23), (0x0101, 0x81), (0x01FF, 0x68)] =
      some (regsOf 0 0 0 0xFE 0xA000 0b011100, 7, true) := by
  decide +kernel
/-- I3: the reset sequence from power-on. -/
theorem test_i3_reset :
    ran { start (regsOf 0 0 0 0x00 0x0000 0b000100) [] [(0xFFFC, 0x00), (0xFFFD, 0x80)] with resetPending := true } [] =
      some (regsOf 0 0 0 0xFD 0x8000 0b000100, 7, true) := by
  decide +kernel
/-- R83, R174: strict mode. -/
theorem test_strict :
    (match step { start (regsOf 0 0 0 0xFD 0x0200 0b000100) [(0x0200, 0x1A)] [] with
        params := { Params.standard with strictOpcodes := true } } with
      | .next t => t.fatal
      | .fault _ => none
      | .refused _ => none) = some (.unimplementedOpcode 0x0200 0x1A) := by
  decide +kernel
/-- R173: no step once fatal is set. -/
theorem test_fatal_stops : step { State.reset with fatal := some (.unimplementedOpcode 0 0x1A) } =
    .fault (.fatal (.unimplementedOpcode 0 0x1A)) := rfl
/-- BV17: LDA $5000 leaves the operand's high byte. -/
theorem test_bv17_open_bus :
    ran (start (regsOf 0 0 0 0xFD 0x0200 0b000100) [(0x0200, 0xAD), (0x0201, 0x00), (0x0202, 0x50)] []) [] =
      some (regsOf 0x50 0 0 0xFD 0x0203 0b000100, 4, true) := by
  decide +kernel

/-! ## Where the next instruction is fetched -/

theorem test_with_fetch_word : fetchInstr (State.reset.withFetchWord 24 0x12348D) = .staAbs 0x34 0x12 := by decide +kernel
theorem test_with_fetch_word_rom :
    fetchInstr ((State.reset.jump 0xC000).withFetchWord 16 0x42A9) = .ldaImm 0x42 := by decide +kernel

/-! ## PPU accesses: vectors PV1 to PV22 -/

/-- The reset state after the warm-up (R236), before any rendering. -/
def warm : State := { State.reset with ppu := { Ppu.powerOn with warmup := false } }

/-- A write of the CPU bus, in the order of the vectors. -/
def writes (l : List (Word × Byte)) (s : State) : State := l.foldl (fun t p => writeAccess p.1 p.2 t) s

theorem test_pv1_address :
    let p := (writes [(0x2006, 0x21), (0x2006, 0x08)] warm).ppu
    p.t = 0x2108 ∧ p.v = 0x2108 ∧ p.w = false := by decide
theorem test_pv2_address_top : (writes [(0x2006, 0xFF), (0x2006, 0xFF)] warm).ppu.v = 0x3FFF := by decide
theorem test_pv3_scroll :
    let p := (writes [(0x2005, 0x7D), (0x2005, 0x5E)] warm).ppu
    p.t = 0x616F ∧ p.fineX = 5 ∧ p.w = false ∧ p.v = 0 := by decide
theorem test_pv4_control :
    let p := (writes [(0x2005, 0x7D), (0x2005, 0x5E), (0x2000, 0x03)] warm).ppu
    p.t = 0x6D6F ∧ p.ctrl = 0x03 := by decide
theorem test_pv5_shared :
    let p := (writes [(0x2006, 0x04), (0x2005, 0x3E), (0x2005, 0x7D), (0x2006, 0xEF)] warm).ppu
    p.t = 0x64EF ∧ p.v = 0x64EF ∧ p.fineX = 5 ∧ p.w = false := by decide
theorem test_pv6_toggle :
    let p := (writeAccess 0x2006 0x08 (readAccess 0x2002 (writeAccess 0x2006 0x21 warm))).ppu
    p.t = 0x0800 ∧ p.w = true ∧ p.v = 0 := by decide
theorem test_pv7_palette :
    let p := (writes [(0x2006, 0x3F), (0x2006, 0x10), (0x2007, 0x6A)] warm).ppu
    p.palette[0] = 0x2A ∧ p.v = 0x3F11 := by decide
theorem test_pv8_palette_read :
    let s := readAccess 0x2007
      (writes [(0x2006, 0x3F), (0x2006, 0x10), (0x2007, 0x6A), (0x2006, 0x3F), (0x2006, 0x00)] warm)
    s.cpuBus = 0x2A ∧ s.ppu.v = 0x3F01 := by decide
theorem test_pv9_vblank_set :
    (ppuDot { warm with ppu := { warm.ppu with scanline := 241, dot := 1 } }).ppu.vblankFlag = true := by decide +kernel
theorem test_pv9_vblank_clear :
    (ppuDot { warm with ppu := { warm.ppu with scanline := 261, dot := 1, vblankFlag := true } }).ppu.vblankFlag = false := by
  decide +kernel
theorem test_pv11_buffer :
    let s := { warm with ciram := [(0, 0xAA), (1, 0xBB)], ppu := { warm.ppu with v := 0x2000 } }
    let s1 := readAccess 0x2007 s
    let s2 := readAccess 0x2007 s1
    let s3 := readAccess 0x2007 s2
    s1.cpuBus = 0x00 ∧ s2.cpuBus = 0xAA ∧ s3.cpuBus = 0xBB ∧ s3.ppu.v = 0x2003 := by decide
theorem test_pv12_increment :
    (writes [(0x2000, 0x04), (0x2006, 0x20), (0x2006, 0x00), (0x2007, 0x11), (0x2007, 0x22)] warm).ciram =
      [(0x000, 0x11), (0x020, 0x22)] := by decide
theorem test_pv13_mirroring :
    (writes [(0x2006, 0x28), (0x2006, 0x05), (0x2007, 0x77)] warm).ciram = [(0x405, 0x77)] := by decide
theorem test_pv14_skipped_dot :
    let p := (ppuDot { warm with
      ppu := { warm.ppu with scanline := 261, dot := 339, oddFrame := true, mask := 0x08 } }).ppu
    p.scanline = 0 ∧ p.dot = 0 ∧ p.oddFrame = false := by decide +kernel
/-- OAM with sprites 0 to 7 at Y = 10, the rest $FF but for two bytes. -/
def oamOf (y8 t9 : Byte) : Vector Byte 256 :=
  ((Vector.ofFn (fun i : Fin 256 => if i.val < 32 ∧ i.val % 4 = 0 then 10 else 0xFF)).set 32 y8).set 37 t9
theorem test_pv18_overflow :
    let p := { warm.ppu with oam := oamOf 10 0xFF, scanline := 10 }.evaluate
    p.evalCount = 8 ∧ p.evalOvfDot = some 130 := by decide +kernel
theorem test_pv19_overflow_bug :
    let p := { warm.ppu with oam := oamOf 0xFF 10, scanline := 10 }.evaluate
    p.evalCount = 8 ∧ p.evalOvfDot = some 132 := by decide +kernel
theorem test_pv20_oam :
    let p := (writes [(0x2003, 0xFE), (0x2004, 1), (0x2004, 2), (0x2004, 3)] warm).ppu
    p.oam[254] = 1 ∧ p.oam[255] = 2 ∧ p.oam[0] = 3 ∧ p.oamAddr = 1 := by decide
theorem test_pv21_attribute :
    (readAccess 0x2004 { warm with
      ppu := { warm.ppu with oam := Vector.replicate 256 0xFF, oamAddr := 2 } }).cpuBus = 0xE3 := by decide
theorem test_pv22_warmup :
    let p := (writes [(0x2000, 0x80), (0x2006, 0x3F)] State.reset).ppu
    p.ctrl = 0 ∧ p.t = 0 ∧ p.w = false := by decide

/-! ## APU: vectors AV1 to AV22, AM2 and AM6 -/

/-- The APU after bus writes, each with its cycle's sequencer step. -/
def apuWrites (l : List (Word × Byte)) : Apu :=
  (l.foldl (fun s p => let t := writeAccess p.1 p.2 s; { t with apu := t.apu.sequencer }) State.reset).apu

theorem test_av1_length : (apuWrites [(0x4015, 0x01), (0x4003, 0x08)]).p1.length = 254 := by decide
theorem test_av2_length : (apuWrites [(0x4015, 0x01), (0x4003, 0xF8)]).p1.length = 30 := by decide
theorem test_av3_disabled : (apuWrites [(0x4015, 0x00), (0x4003, 0x08)]).p1.length = 0 := by decide
theorem test_av4_no_underflow : clockLength false 1 = 0 ∧ clockLength false 0 = 0 := by decide
theorem test_av6_envelope :
    let e1 := Envelope.clock 2 false { start := true, div := 0, decay := 0 }
    let e4 := Envelope.clock 2 false (Envelope.clock 2 false (Envelope.clock 2 false e1))
    e1.decay = 15 ∧ e1.div = 2 ∧ e4.decay = 14 ∧ e4.div = 2 := by decide
/-- A pulse channel with these sweep settings. -/
def sweeping (period : BitVec 11) (v : Byte) : Pulse := { Pulse.powerOn with timerPeriod := period }.writeSweep v
theorem test_av9_sweep :
    (sweeping 0x400 0x81).target true = 0x600 ∧ ((sweeping 0x400 0x81).clockHalf true).timerPeriod = 0x600 := by decide
theorem test_av10_muted :
    (sweeping 0x600 0x81).muted true = true ∧ ((sweeping 0x600 0x81).clockHalf true).timerPeriod = 0x600 := by decide
theorem test_av11_short : ({ Pulse.powerOn with timerPeriod := 7 } : Pulse).muted true = true := by decide
theorem test_av12_negate :
    (sweeping 0x100 0x89).target true = 0x7F ∧ (sweeping 0x100 0x89).target false = 0x80 := by decide
theorem test_av13_four_step :
    ({ Apu.powerOn with fcCount := 29828 }.sequencer).frameIrq = true ∧
      ({ Apu.powerOn with fcCount := 29829 }.sequencer).fcCount = 0 := by decide
theorem test_av15_reset :
    let a := (Apu.powerOn.write false 0x17 0x80).sequencer
    a.fcMode = true ∧ a.fcResetIn = some 3 ∧ a.sequencer.sequencer.seqStep.count = 0 ∧
      a.sequencer.sequencer.seqStep.half = true := by decide
theorem test_av16_inhibit : ({ Apu.powerOn with frameIrq := true }.write false 0x17 0x40).frameIrq = false := by decide
theorem test_av17_lfsr : clockLfsr false 1 = 0x4000 ∧ clockLfsr true 1 = 0x4000 := by decide
theorem test_av20_sample :
    (apuWrites [(0x4012, 0x01), (0x4013, 0x02)]).dmc.startAddr = 0xC040 ∧
      (apuWrites [(0x4012, 0x01), (0x4013, 0x02)]).dmc.startLen = 33 := by decide
theorem test_av21_wrap :
    let a := { Apu.powerOn with dmc := { Dmc.powerOn with address := 0xFFFF, remaining := 2 } }.takeSample 5 1
    a.dmc.address = 0x8000 ∧ a.dmc.remaining = 1 ∧ a.dmc.buffer = some 5 := by decide
theorem test_av22_level : ({ Dmc.powerOn with level := 126, silence := false, shift := 1 } : Dmc).nextLevel = 126 := by
  decide
theorem test_am2_pulse : -701246366 / 1000000000 < mix 15 0 0 0 0 ∧ mix 15 0 0 0 0 < -701246364 / 1000000000 := by
  decide +kernel
theorem test_am6_full :
    999998701 / 1000000000 < mix 15 15 15 15 127 ∧ mix 15 15 15 15 127 < 999998703 / 1000000000 := by decide +kernel

/-! ## Bus and cartridge: vectors BV1 to BV14 -/

theorem test_bv1_mirror :
    let s := writeAccess 0x0801 0x5A State.reset
    (readAccess 0x1801 s).cpuBus = 0x5A ∧ (readAccess 0x0001 s).cpuBus = 0x5A := by decide
theorem test_bv2_mirror : (writeAccess 0x3FF8 0x80 warm).ppu.ctrl = 0x80 := by decide
theorem test_bv3_controller :
    let u := writes [(0x4016, 1), (0x4016, 0)] { State.reset with port0 := { buttons := 0x09, shift := 0 } }
    (readAccess 0x4016 u).cpuBus = 0x01 ∧ (readAccess 0x4016 (readAccess 0x4016 u)).cpuBus = 0x00 := by decide
theorem test_bv4_strobe :
    let u := writes [(0x4016, 1)] { State.reset with port0 := { buttons := 0x01, shift := 0 } }
    (readAccess 0x4016 (readAccess 0x4016 u)).cpuBus = 0x01 := by decide
theorem test_bv5_nrom :
    let s := { State.reset with cart := { Cartridge.blank with prgRom := [(0x0123, 0xC9)] } }
    (readAccess 0x8123 s).cpuBus = 0xC9 ∧ (readAccess 0xC123 (writeAccess 0x8123 0 s)).cpuBus = 0xC9 := by decide
/-- An MMC3 with 64 KiB of PRG ROM, byte 0 of each bank its number. -/
def mmc3State : State :=
  { State.reset with
    cart := { Cartridge.blank with
      header := { nromHeader 4 0 with mapper := 4 }
      mapper := .mmc3
      prgRom := [(0x2000, 1), (0x4000, 2), (0x6000, 3), (0x8000, 4), (0xA000, 5), (0xC000, 6), (0xE000, 7)] } }
theorem test_bv6_bank : (readAccess 0x8000 (writes [(0x8000, 6), (0x8001, 3)] mmc3State)).cpuBus = 3 := by decide
theorem test_bv7_mode :
    let s := writes [(0x8000, 6), (0x8001, 3), (0x8000, 0x46)] mmc3State
    (readAccess 0x8000 s).cpuBus = 6 ∧ (readAccess 0xC000 s).cpuBus = 3 := by decide
theorem test_bv8_modulo :
    let s := writes [(0x8000, 7), (0x8001, 0x0D)] mmc3State
    (readAccess 0xA000 s).cpuBus = 5 ∧ (readAccess 0xE000 s).cpuBus = 7 := by decide
theorem test_bv10_chr :
    let c := { mmc3State.cart with
      header := { nromHeader 4 8 with mapper := 4 }
      mmc3 := { Mmc3.powerOn with bankReg := #v[5, 0, 0x20, 0, 0, 0, 0, 0] } }
    c.chrOffset 0x0000 = 4 * 1024 ∧ c.chrOffset 0x0400 = 5 * 1024 ∧ c.chrOffset 0x1000 = 0x20 * 1024 := by decide
theorem test_bv11_irq :
    let r := (writes [(0xC000, 2), (0xC001, 0), (0xE001, 0)] mmc3State).cart.mmc3
    r.clockCounter.clockCounter.irqFlag = false ∧ r.clockCounter.clockCounter.clockCounter.irqFlag = true := by decide
theorem test_bv13_acknowledge :
    let c := (writeAccess 0xE000 0 { mmc3State with
      cart := { mmc3State.cart with mmc3 := { Mmc3.powerOn with irqFlag := true, irqEnable := true } } }).cart
    c.irqPending = false ∧ c.mmc3.irqEnable = false := by decide
theorem test_bv14_protect :
    (readAccess 0x6000 (writes [(0xA001, 0x80), (0x6000, 0x12), (0xA001, 0xC0), (0x6000, 0x34)] mmc3State)).cpuBus
      = 0x12 := by decide

/-! ## Witnesses: what meets the hypotheses of each obligation that has some -/

/-- An instruction boundary at $0200 in work RAM, with these bytes there; S is $FD. -/
def code (bytes : List (Nat × Byte)) : State := start (regsOf 0 0 0 0xFD 0x0200 0b000100) bytes []

/-- The same, with the parameters in strict mode. -/
def strict : State := { code [] with params := { Params.standard with strictOpcodes := true } }

theorem code_at_fetch (bytes : List (Nat × Byte)) : AtFetch (code bytes) := ⟨rfl, rfl, rfl, rfl⟩

theorem code_no_dma (bytes : List (Nat × Byte)) : NoDma (code bytes) := ⟨rfl, rfl, rfl⟩

theorem test_witness_DecodeThenEncode :
    decode [0xA9, 0x42, 0x00] = .ok (.ldaImm 0x42, [0x00]) ∧ operandCount 0x4C ≤ [0x34#8, 0x12#8].length ∧
      operandCount 0xEA ≤ ([] : List Byte).length := by decide

theorem test_witness_StepRunsDecodedInstruction :
    let s := code [(0x0200, 0x20), (0x0201, 0x34), (0x0202, 0x12)]
    AtFetch s ∧ (∀ k b, (encode (.jsr 0x34 0x12))[k]? = some b → memByte s (s.regs.pc + BitVec.ofNat 16 k) = some b) ∧
      ((Instr.jsr 0x34 0x12).mnemonic = .jsr → ¬hitsRam (stackAddr s.regs.sp) (s.regs.pc + 2) ∧
        ¬hitsRam (stackAddr (s.regs.sp - 1)) (s.regs.pc + 2)) := by
  refine ⟨code_at_fetch _, ?_, fun _ => ?_⟩
  · intro k b h
    match k with
    | 0 => cases h; decide
    | 1 => cases h; decide
    | 2 => cases h; decide
    | n + 3 => cases h
  · unfold hitsRam
    decide

theorem test_witness_LoadResults :
    Instr.laxZp 0x10 ∈ [Instr.laxZp 0x10, .laxZpy 0x10] ∧ Runs (.laxZp 0x10) (code []) ∧
      operandByte (.ldaImm 0xFF) (code []) = some 0xFF ∧ operandByte (.ldaZp 0xFF) (code [(0xFF, 7)]) = some 7 ∧
      operandByte (.ldaAbs 0x00 0x20) (code []) = none := ⟨by decide, .inr rfl, by decide, by decide, by decide⟩
theorem test_witness_StoreResults : Runs (.saxZp 0x10) (code []) ∧ Runs (.staAbs 0xFF 0xFF) strict := ⟨.inr rfl, .inl rfl⟩
theorem test_witness_AddSubtractResults : Runs (.usbcImm 0x80) (code []) ∧ Runs (.sbcImm 0x80) strict := ⟨.inr rfl, .inl rfl⟩
theorem test_witness_JumpResults :
    memByte (code [(0x10FF % 2048, 1)]) (w16 0x10 0xFF) = some 1 ∧ memByte (code [(0, 2)]) (w16 0x10 (0xFF + 1)) ≠ none := by
  unfold memByte
  decide
theorem test_witness_BranchResults :
    Instr.beq 0x80 ∈ [Instr.bne 0x80, .beq 0x80] ∧ branchTaken (.bne 0x80) (code []).regs.p = true ∧
      branchTaken (.beq 0x80) (code []).regs.p = false := by decide
theorem test_witness_UnofficialNopResults : Runs .nop1A (code []) ∧ Runs (.nopAbxFC 0xFF 0xFF) (code []) := ⟨.inr rfl, .inr rfl⟩
theorem test_witness_JamHalts : Runs .jam02 (code []) ∧ Runs .jamF2 (code []) := ⟨.inr rfl, .inr rfl⟩
theorem test_witness_CombinedModifyResults : Runs (.sloIzx 0xFF) (code []) ∧ Runs (.iscIzy 0) (code []) := ⟨.inr rfl, .inr rfl⟩
theorem test_witness_ImmediateCombinationResults : Runs (.ancImm2B 0) (code []) ∧ Runs (.lasAby 0 0) (code []) :=
  ⟨.inr rfl, .inr rfl⟩
theorem test_witness_UnstableImmediateResults : Runs (.aneImm 0) (code []) ∧ Runs (.lxaImm 0xFF) (code []) :=
  ⟨.inr rfl, .inr rfl⟩
theorem test_witness_UnstableStoreResults :
    Runs (.shaIzy 0) (code []) ∧ Runs (.tasAby 0xFF 2) (code []) ∧ NoDma (code []) ∧
      pageCrossed (.shxAby 0xFF 2) { code [] with regs := { (code []).regs with y := 1 } } = true ∧
      pageCrossed (.shxAby 0xFE 2) { code [] with regs := { (code []).regs with y := 1 } } = false :=
  ⟨.inr rfl, .inr rfl, code_no_dma _, by decide, by decide⟩
theorem test_witness_StrictModeIsFatal :
    (Instr.nopImm80 0).official = false ∧ strict.params.strictOpcodes = true ∧ NoDma strict := ⟨rfl, rfl, rfl, rfl, rfl⟩
theorem test_witness_InstructionCycles :
    NoDma (code []) ∧ Runs .nop (code []) ∧ ∃ t, exec .nop (code []) = .next t := ⟨code_no_dma _, .inl rfl, _, rfl⟩
theorem test_witness_LastCyclesOfAnInstruction :
    Runs (.ldaAbx 0xFF 0xFF) strict ∧ (Instr.ldaAbx 0xFF 0xFF).mode ≠ .imm ∧ (Instr.ldaAbx 0xFF 0xFF).mode ≠ .imp ∧
      (Instr.ldaAbx 0xFF 0xFF).mode ≠ .acc ∧ (Instr.ldaAbx 0xFF 0xFF).mnemonic = .lda ∧
      (Instr.staZp 0).mnemonic = .sta ∧ (Instr.aslZp 0).mnemonic = .asl ∧ Runs (.iscAbs 0 0) (code []) ∧
      memByte (code [(0, 9)]) (effAddr (.aslZp 0) (code [(0, 9)])) = some 9 :=
  ⟨.inl rfl, by decide, by decide, by decide, rfl, rfl, rfl, .inr rfl, by decide⟩
theorem test_witness_InterruptEntry :
    let s := { code [] with intNext := some .nmi }
    s.fatal = none ∧ s.resetPending = false ∧ s.halted = false ∧ s.intNext = some .nmi ∧ NoDma s ∧
      ({ code [] with intNext := some .irq } : State).intNext = some .irq ∧ (code []).nmiPending = false ∧
      (code []).ppu.ctrl.getLsbD 7 = false := ⟨rfl, rfl, rfl, rfl, ⟨rfl, rfl, rfl⟩, rfl, rfl, by decide⟩
theorem test_witness_BrkResult : (code []).nmiPending = false ∧ (code []).ppu.ctrl.getLsbD 7 = false := ⟨rfl, by decide⟩
theorem test_witness_NmiTakesOverBrk :
    let s := { code [(0x0200, 0), (0x0201, 0)] with nmiPending := true }
    s.nmiPending = true ∧ NoDma s ∧ memByte s s.regs.pc ≠ none ∧ memByte s (s.regs.pc + 1) ≠ none ∧
      ∃ t, exec .brk s = .next t := ⟨rfl, ⟨rfl, rfl, rfl⟩, by decide, by decide, _, rfl⟩
theorem test_witness_ResetSequenceResult :
    State.reset.fatal = none ∧ State.reset.resetPending = true ∧ NoDma State.reset := ⟨rfl, rfl, rfl, rfl, rfl⟩
theorem test_witness_MaskedIrqIsNotChosen :
    (code []).regs.p.i = true ∧ (code []).intNext = none ∧ Instr.cli ≠ .rti ∧ ∃ t, exec .cli (code []) = .next t :=
  ⟨rfl, rfl, by decide, _, rfl⟩
theorem test_witness_HaltedStepResult :
    let s := { code [] with halted := true }
    s.fatal = none ∧ s.resetPending = false ∧ s.halted = true ∧ NoDma s := ⟨rfl, rfl, rfl, ⟨rfl, rfl, rfl⟩⟩
theorem test_witness_OnlyStrictModeIsFatalOnlyJamHalts :
    (code []).params.strictOpcodes = false ∧ (∃ t, step State.reset = .next t) ∧
      ({ code [] with fatal := some (.unimplementedOpcode 0 2) } : State).fatal = some (.unimplementedOpcode 0 2) ∧
      ∃ t, step (code [(0x0200, 0x02)]) = .next t ∧ t.halted = true := by
  have h : ∀ o : Host.Outcome State Fault Refusal, (match o with
      | .next t => t.halted
      | .fault _ => false
      | .refused _ => false) = true → ∃ t, o = .next t ∧ t.halted = true := by
    intro o ho
    cases o with
    | next t => exact ⟨t, rfl, ho⟩
    | fault _ => cases ho
    | refused _ => cases ho
  exact ⟨rfl, ⟨_, rfl⟩, rfl, h _ (by decide +kernel)⟩
theorem test_witness_PpuStaysInRange :
    let s := { State.reset with ppu := { Ppu.powerOn with scanline := 261, dot := 340, evalCount := 8, lineCount := 8 } }
    PpuInv s ∧ ∃ t, step s = .next t := by
  refine ⟨?_, _, rfl⟩
  unfold PpuInv
  decide
theorem test_witness_ApuStaysInRange :
    let s := { State.reset with
      dmcDma := true
      apu := { Apu.powerOn with
        p1 := { Pulse.powerOn with length := 254 }, dmc := { Dmc.powerOn with bits := 1, remaining := 1 }, fcResetIn := some 4 } }
    ApuInv s ∧ ∃ t, step s = .next t := by
  refine ⟨⟨by decide, by decide, by decide, by decide, by decide, by decide, rfl, by decide, ?_, fun _ => ⟨rfl, by decide⟩⟩, _, rfl⟩
  intro n h
  cases h
  decide
theorem test_witness_MemoriesStayCanonical :
    let s := { code [(0, 1), (2047, 2)] with
      resetPending := true, ciram := [(2047, 1)], cart := { Cartridge.blank with chr := [(8191, 3)] } }
    MemoryInv s ∧ ∃ t, step s = .next t := by
  refine ⟨?_, _, rfl⟩
  unfold MemoryInv
  decide
theorem test_witness_InvariantsHoldAtPowerOn : ∃ cart, load (image 1 0 0 0 16384) = .ok cart := ⟨_, test_load_accepts⟩
theorem test_witness_RomNeverChanges :
    (∃ t, step State.reset = .next t) ∧
      ({ Cartridge.blank with header := nromHeader 1 1 } : Cartridge).chrIsRam = false := ⟨⟨_, rfl⟩, by decide⟩
theorem test_witness_ScrollAndAddressWrites :
    (0x2000 ≤ (0x2005#16).toNat ∧ (0x3FFE#16).toNat < 0x4000 ∧ (0x2005#16).toNat % 8 = 5 ∧ (0x3FFE#16).toNat % 8 = 6) ∧
      Ppu.powerOn.warmup = true ∧ warm.ppu.warmup = false ∧ warm.ppu.w = false ∧
      (writeAccess 0x2005 0 warm).ppu.w = true ∧ (writeAccess 0x2005 0 warm).ppu.warmup = false := by decide
theorem test_witness_ControlAndMaskWrites :
    0x2000 ≤ (0x2000#16).toNat ∧ (0x3FFB#16).toNat < 0x4000 ∧ (0x2000#16).toNat % 8 = 0 ∧ (0x3FF9#16).toNat % 8 = 1 ∧
      (0x3FFA#16).toNat % 8 = 2 ∧ (0x3FFB#16).toNat % 8 = 3 ∧ Ppu.powerOn.warmup = true ∧ warm.ppu.warmup = false := by
  decide
theorem test_witness_StatusRead :
    0x2000 ≤ (0x2002#16).toNat ∧ (0x3FFA#16).toNat < 0x4000 ∧ (0x2002#16).toNat % 8 = 2 ∧ (0x3FFA#16).toNat % 8 = 2 ∧
      ({ Ppu.powerOn with scanline := 241, dot := 3 } : Ppu).inRaceWindow = true ∧
      ({ Ppu.powerOn with scanline := 241, dot := 4 } : Ppu).inRaceWindow = false ∧ Ppu.powerOn.inRaceWindow = false := by
  decide
theorem test_witness_OamDataAccess :
    0x2000 ≤ (0x2004#16).toNat ∧ (0x3FFC#16).toNat < 0x4000 ∧ (0x2004#16).toNat % 8 = 4 ∧ (0x3FFC#16).toNat % 8 = 4 ∧
      Ppu.powerOn.rendering = false ∧ ({ Ppu.powerOn with mask := 0x10, scanline := 239 } : Ppu).rendering = true ∧
      ({ Ppu.powerOn with mask := 0x10, scanline := 240 } : Ppu).rendering = false := by decide
theorem test_witness_PpuDataAccess :
    0x2000 ≤ (0x2007#16).toNat ∧ (0x3FFF#16).toNat < 0x4000 ∧ (0x3FFF#16).toNat % 8 = 7 ∧ Ppu.powerOn.rendering = false ∧
      ({ Ppu.powerOn with mask := 0x08 } : Ppu).rendering = true ∧ (0x3EFF#15).toNat % 16384 < 0x3F00 ∧
      0x2000 ≤ (0x3EFF#15).toNat % 16384 ∧ 0x3F00 ≤ (0x7F00#15).toNat % 16384 ∧ State.reset.cart.chrIsRam = true ∧
      (0x1FFF#15).toNat % 16384 < 0x2000 := by decide
theorem test_witness_DotTiming :
    PpuInv { State.reset with ppu := { Ppu.powerOn with scanline := 241, dot := 1 } } ∧
      PpuInv { State.reset with ppu := { Ppu.powerOn with scanline := 261, dot := 1 } } ∧
      PpuInv { State.reset with ppu := { Ppu.powerOn with scanline := 261, dot := 339, oddFrame := true, mask := 8 } } ∧
      PpuInv { State.reset with ppu := { Ppu.powerOn with scanline := 261, dot := 340 } } := by
  unfold PpuInv
  decide
theorem test_witness_SpriteEvaluationFindsFirstEight :
    let found (line : Nat) := ((List.range 64).filter fun n =>
      decide ((Ppu.powerOn.oamByte (4 * n)).toNat ≤ line ∧ line < (Ppu.powerOn.oamByte (4 * n)).toNat + 8)).take 8
    (found 7)[7]? = some 7 ∧ (found 8).length < 8 := by decide +kernel
theorem test_witness_LengthCounterLoad :
    Apu.powerOn.late = none ∧ ({ Apu.powerOn with fcCount := 14912 } : Apu).seqStep.half = true ∧
      ({ Apu.powerOn with enTri := true } : Apu).enabled 2 = true ∧ Apu.powerOn.enabled 2 = false := by decide
theorem test_witness_FrameSequencerSchedule :
    Apu.powerOn.late = none ∧ Apu.powerOn.fcResetIn = none ∧
      (∃ k, ({ Apu.powerOn with fcResetIn := some 2 } : Apu).fcResetIn = some k ∧ 1 < k) ∧
      ({ Apu.powerOn with fcResetIn := some 1 } : Apu).fcResetIn = some 1 ∧ (0x40#8).getLsbD 6 = true :=
  ⟨rfl, rfl, ⟨2, rfl, by decide⟩, rfl, rfl⟩
/-- The $4017 clause where an earlier reset falls due in the write's own cycle (log 27). -/
theorem test_witness_FrameSequencerSchedule_due :
    let a := { Apu.powerOn with fcResetIn := some 1 }
    a.late = none ∧ (a.write true 0x17 0xC0).sequencer.fcResetIn = some 4 ∧
      (a.write false 0x17 0xC0).sequencer.fcResetIn = some 3 ∧ (a.write false 0x17 0xC0).frameIrq = false := by decide
theorem test_witness_MutedChannelsAreSilent :
    (sweeping 7 0).muted true = true ∧ ((sweeping 8 0x81).clockHalf true).timerPeriod ≠ (sweeping 8 0x81).timerPeriod ∧
      Pulse.powerOn.length = 0 ∧ Noise.powerOn.length = 0 := by decide
theorem test_witness_OamDmaCopiesPage :
    let s := { code [] with oamDma := some 0x1F }
    s.oamDma = some 0x1F ∧ s.dmcDma = false ∧ s.apu.dmc.remaining = 0 ∧ s.ppu.renderingEnabled = false ∧
      ∀ i : Byte, memByte s (w16 0x1F i) = some (wramByte s (w16 0x1F i)) := by
  refine ⟨rfl, rfl, rfl, rfl, fun i => ?_⟩
  unfold memByte
  rw [if_pos]
  have h : (w16 0x1F i).toNat < 0x2000 := by
    revert i
    decide
  exact h
theorem test_witness_DmcDmaFetchesByte :
    let s := { code [] with
      dmcDma := true, apu := { Apu.powerOn with dmc := { Dmc.powerOn with address := 0xFFFF, remaining := 2 } } }
    s.oamDma = none ∧ s.dmcDma = true ∧ s.apu.dmc.remaining ≠ 0 ∧ s.apu.dmc.remaining ≠ 1 ∧
      memByte s s.apu.dmc.address = some 0 := by decide
/-- The last byte of a sample, looping and not; and a disable with a request standing. -/
theorem test_witness_DmcDmaFetchesByte_last :
    let s (loop : Bool) := { code [] with
      dmcDma := true
      apu := { Apu.powerOn with dmc := { Dmc.powerOn with address := 0xC000, remaining := 1, loop := loop, irqEn := true } } }
    (∀ loop, (s loop).oamDma = none ∧ (s loop).dmcDma = true ∧ (s loop).apu.dmc.remaining ≠ 0 ∧
      (s loop).apu.dmc.remaining = 1 ∧ (s loop).apu.dmc.loop = loop ∧ memByte (s loop) (s loop).apu.dmc.address = some 0) ∧
      (0xEF#8).getLsbD 4 = false ∧ (writeAccess 0x4015 0xEF (s false)).dmcDma = false ∧
      (writeAccess 0x4015 0x10 (s false)).dmcDma = true := by decide
theorem test_witness_Mmc3BankRoundTrip :
    mmc3State.cart.mapper = .mmc3 ∧ 0 < mmc3State.cart.header.prgUnits ∧ 0x8000 ≤ (0x8000#16).toNat ∧
      (0x9FFF#16).toNat < 0xA000 ∧ 0xE000 ≤ (0xE000#16).toNat ∧ 0xE000 ≤ (0xFFFF#16).toNat := by decide
theorem test_witness_Mmc3IrqAfterLatchPlusOneClocks :
    let r := { Mmc3.powerOn with irqReload := true, irqEnable := true, irqLatch := 255 }
    r.irqReload = true ∧ r.irqEnable = true ∧ r.irqFlag = false := by decide
/-- A read of one port with the strobe on reloads the other too (R201). -/
theorem test_witness_ControllerReadsAreSerial :
    let s := { State.reset with strobe := true, port0 := ⟨0x81, 0⟩, port1 := ⟨0x42, 0⟩ }
    s.strobe = true ∧ (readAccess 0x4016 s).cpuBus = 1 ∧ (readAccess 0x4016 s).port1 = ⟨0x42, 0x42⟩ ∧
      (readAccess 0x4017 s).cpuBus = 0 ∧ (readAccess 0x4017 s).port0 = ⟨0x81, 0x81⟩ := by decide
theorem test_witness_OpenBusReads :
    (0x4000 ≤ (0x4000#16).toNat ∧ (0x4014#16).toNat ≤ 0x4014) ∧ (0x4018 ≤ (0x4018#16).toNat ∧ (0x5FFF#16).toNat < 0x6000) ∧
      (0x6000 ≤ (0x6000#16).toNat ∧ (0x7FFF#16).toNat < 0x8000) ∧
      Cartridge.blank.ramReadable { Params.standard with nromPrgRam := false } = false := by decide
theorem test_witness_LoaderChecks :
    (∃ cart, load (image 1 0 0 0 16384) = .ok cart) ∧
      (let i := image 1 0 0x10 0 16384
       16 ≤ i.length ∧ i.take 4 = [0x4E, 0x45, 0x53, 0x1A] ∧ 0 < (parseHeader i).prgUnits ∧
         16 + (if (parseHeader i).trainer then 512 else 0) + 16384 * (parseHeader i).prgUnits
           + 8192 * (parseHeader i).chrUnits ≤ i.length ∧
         (parseHeader i).mapper ≠ 0 ∧ (parseHeader i).mapper ≠ 4) := by
  refine ⟨⟨_, test_load_accepts⟩, ?_⟩
  dsimp only
  rw [image_length]
  decide

/-- Row 15 flipped in an 8x8 sprite is -8, whose pattern address lies in the palette; row 7 of tile $FF does not (R252, R197). -/
theorem test_sprite_row_out_of_range :
    spritePatternAddr 0 0xFF (7 - 15) = 0x3FF8 ∧ spritePatternAddr 0 0xFF 7 = 0x0FF7 ∧ paletteEntry 0x3FF9 = 25 ∧
      paletteEntry 0x3FF8 = 8 := by decide

/-! ## Entries and ends of runs (R295, R296) -/

/-- An entry with nothing in memory. -/
def entry (pc : Word) : Entry :=
  { regs := { Regs.powerOn with pc := pc, sp := 0xFF }, scanline := 261, dot := 340, cpuCycle := 7, wram := [], ciram := []
    prgRam := [], chrRam := [], fourScreen := [], oam := Vector.replicate 256 0, palette := Vector.replicate 32 0 }
theorem test_entry_is_well_formed : (entry 0x8000).wellFormed := by
  unfold Entry.wellFormed
  decide
theorem test_entry_off_the_grid_is_not : ¬({ entry 0x8000 with dot := 341 } : Entry).wellFormed := by
  unfold Entry.wellFormed
  decide
theorem test_clean_entry : ∃ s, CleanEntry (image 1 0 0 0 16384) Params.standard (entry 0x8000) s ∧ s.regs.pc = 0x8000 :=
  ⟨_, ⟨test_entry_is_well_formed, _, ⟨_, test_load_accepts, rfl⟩, rfl⟩, rfl⟩
/-- A chosen interrupt is no bar to the end of a run at END_PC, and a requested DMA is. -/
theorem test_at_end :
    AtEnd 0x0200 { code [] with intNext := some .nmi } ∧ ¬AtEnd 0x0200 { code [] with oamDma := some 2 } ∧
      ¬AtEnd 0x0201 (code []) ∧ AtEnd 0x0201 { code [] with halted := true } ∧ ¬AtEnd 0x0000 State.reset := by
  unfold AtEnd NoFault
  decide
theorem test_run_ends : RunEnds 0x0200 (code []) (code []) :=
  ⟨0, rfl, ⟨rfl, .inl ⟨rfl, rfl, rfl, rfl⟩⟩, fun _ _ h => absurd h (Nat.not_lt_zero _)⟩
/-- An NMI edge and an active IRQ line in a step are seen by the counters. -/
theorem test_no_interrupts :
    let s := code [(0x0200, 0xEA)]
    NoInterrupts s s ∧ (cycle id { s with ppu := { s.ppu with vblankFlag := true, ctrl := 0x80 } }).nmiEdges = 1 ∧
      (cycle id { s with apu := { s.apu with dmcIrq := true } }).irqCycles = 1 ∧ (cycle id s).irqCycles = 0 ∧
      (cycle id s).nmiEdges = 0 := ⟨⟨rfl, rfl⟩, by decide +kernel, by decide +kernel, by decide +kernel, by decide +kernel⟩

end Sys2Proof.Tests
end

section
/-!
PROOFS. Every instruction with an address is one access class (R76 to R78) run on one addressing mode (R70 to R75) after its
opcode fetch. `exec_of_access` says so for all of them at once, `addressed_law` says what each mode leaves, and
`Access.run_lastCycles` what each class does in its last cycles; O28 follows.
-/

namespace Sys2Proof.Machine

/-! ## Addressed instructions as class and mode -/

/-- The modes with an effective address (R70 to R75). -/
def addressMode : Mode → Bool
  | .zp | .zpx | .zpy | .abs | .abx | .aby | .izx | .izy => true
  | .imp | .acc | .imm | .ind | .rel | .jam => false

/-- What the cycles of an addressing mode give, from the state after the opcode fetch; for a mode without an address, that
state and EA 0, as in `effAddr`. Reducible, as are `Access.run` and `afterFetch`, so that each arm of `exec_arm` is met by
computing these and not by unfolding a bus cycle. -/
abbrev addressed (i : Instr) (t : State) : Plain ⊕ Indexed :=
  match i.mode with
  | .zp => .inl (zp (operand1 i) t)
  | .zpx => .inl (zpIndexed Regs.x (operand1 i) t)
  | .zpy => .inl (zpIndexed Regs.y (operand1 i) t)
  | .abs => .inl (abs (operand1 i) (operand2 i) t)
  | .abx => .inr (absIndexed Regs.x (operand1 i) (operand2 i) t)
  | .aby => .inr (absIndexed Regs.y (operand1 i) (operand2 i) t)
  | .izx => .inl (izx (operand1 i) t)
  | .izy => .inr (izy (operand1 i) t)
  | .imp | .acc | .imm | .ind | .rel | .jam => .inl { st := t, ea := 0 }

/-- An access class with its operation (R76 to R78). -/
inductive Access where
  | read (f : Byte → Regs → Regs)
  | write (value : Regs → Byte)
  | modify (g : Bool → Byte → Byte) (f : Byte → Byte → Regs → Regs)

/-- The instruction of an access class, from what its addressing mode gives. -/
abbrev Access.run : Access → Plain ⊕ Indexed → State
  | .read f, .inl e => readPlain f e
  | .read f, .inr e => readIndexed f e
  | .write value, .inl e => writePlain value e
  | .write value, .inr e => writeIndexed value e
  | .modify g f, .inl e => rmwPlain g f e
  | .modify g f, .inr e => rmwIndexed g f e

/-- The class and operation of a mnemonic where it takes an address; the unstable stores (R167) have a class of their own. -/
def accessOf : Mnemonic → Option Access
  | .lda => some (.read opLda)
  | .ldx => some (.read opLdx)
  | .ldy => some (.read opLdy)
  | .adc => some (.read opAdc)
  | .sbc => some (.read opSbc)
  | .and => some (.read opAnd)
  | .ora => some (.read opOra)
  | .eor => some (.read opEor)
  | .bit => some (.read opBit)
  | .cmp => some (.read opCmp)
  | .cpx => some (.read opCpx)
  | .cpy => some (.read opCpy)
  | .nop => some (.read opNop)
  | .lax => some (.read opLax)
  | .las => some (.read opLas)
  | .sta => some (.write Regs.a)
  | .stx => some (.write Regs.x)
  | .sty => some (.write Regs.y)
  | .sax => some (.write fun r => r.a &&& r.x)
  | .inc => some (.modify modInc opIncDec)
  | .dec => some (.modify modDec opIncDec)
  | .asl => some (.modify modAsl opShiftLeft)
  | .lsr => some (.modify modLsr opShiftRight)
  | .rol => some (.modify modRol opShiftLeft)
  | .ror => some (.modify modRor opShiftRight)
  | .slo => some (.modify modAsl opSlo)
  | .rla => some (.modify modRol opRla)
  | .sre => some (.modify modLsr opSre)
  | .rra => some (.modify modRor opRra)
  | .dcp => some (.modify modDec opDcp)
  | .isc => some (.modify modInc opIsc)
  | _ => none

theorem accessOf_read {m : Mnemonic}
    (h : m ∈ [Mnemonic.lda, .ldx, .ldy, .adc, .sbc, .and, .ora, .eor, .bit, .cmp, .cpx, .cpy, .nop, .lax, .las]) :
    ∃ f, accessOf m = some (.read f) := by
  fin_cases h <;> exact ⟨_, rfl⟩

theorem accessOf_write {m : Mnemonic} (h : m ∈ [Mnemonic.sta, .stx, .sty, .sax]) :
    ∃ value, accessOf m = some (.write value) := by
  fin_cases h <;> exact ⟨_, rfl⟩

theorem accessOf_modify {m : Mnemonic}
    (h : m ∈ [Mnemonic.inc, .dec, .asl, .lsr, .rol, .ror, .slo, .rla, .sre, .rra, .dcp, .isc]) :
    ∃ g f, accessOf m = some (.modify g f) := by
  fin_cases h <;> exact ⟨_, _, rfl⟩

/-- A mnemonic of an access class has an address, but for its immediate, implied and accumulator forms: the modes left over
are those of JMP, the branches and JAM, which have no class. -/
theorem addressMode_of_access {i : Instr} {c : Access} (hc : accessOf i.mnemonic = some c) (himm : i.mode ≠ .imm)
    (himp : i.mode ≠ .imp) (hacc : i.mode ≠ .acc) : addressMode i.mode = true := by
  cases hi : i.mode
  case zp | zpx | zpy | abs | abx | aby | izx | izy => rfl
  case imm => exact absurd hi himm
  case imp => exact absurd hi himp
  case acc => exact absurd hi hacc
  case ind | rel | jam => cases i <;> cases hi <;> cases hc

/-- After an opcode fetch, what a completing instruction goes on with (R67, R83). -/
abbrev afterFetch (i : Instr) (k : State → State) (s : State) : State :=
  match i.official with
  | true => k (readPc s)
  | false => unofficial i.opcode k s

theorem afterFetch_of_runs {i : Instr} {s : State} (k : State → State) (hr : Runs i s) :
    afterFetch i k s = k (readPc s) := by
  unfold afterFetch
  cases ho : i.official with
  | true => rfl
  | false => exact unofficial_law i.opcode k (hr.resolve_left (by simp [ho]))

/-- Each arm of `exec` for an instruction with an address and a class is, by definition, that class on that address; `hm` and
`hc` rule the other arms out. -/
theorem exec_arm {i : Instr} {c : Access} (hm : addressMode i.mode = true) (hc : accessOf i.mnemonic = some c) (s : State) :
    exec i s = .next (afterFetch i (fun t => c.run (addressed i t)) s) := by
  cases i <;> cases hm <;> cases hc <;> rfl

theorem exec_of_access {i : Instr} {c : Access} {s : State} (hr : Runs i s) (hm : addressMode i.mode = true)
    (hc : accessOf i.mnemonic = some c) : exec i s = .next (c.run (addressed i (readPc s))) := by
  rw [exec_arm hm hc, afterFetch_of_runs _ hr]

/-! ## What an addressing mode leaves -/

/-- An addressing mode's result agrees with `effAddr` and `baseIndex`, and PC is past the instruction (R66, R70 to R75). -/
def Located (i : Instr) (s : State) : Plain ⊕ Indexed → Prop
  | .inl e => Fetched i.length s e.st ∧ e.ea = effAddr i s
  | .inr e => Fetched i.length s e.st ∧ e.ea = effAddr i s ∧ IndexedAt e (baseIndex i s).1 (baseIndex i s).2

theorem addressed_law {i : Instr} (s : State) (hm : addressMode i.mode = true) : Located i s (addressed i (readPc s)) := by
  have h := readPc_fetched s
  unfold addressed Located Instr.length effAddr baseIndex
  cases hi : i.mode <;> rw [hi] at hm
  case zp => exact zp_law _ h
  case zpx => exact zpX_law _ h
  case zpy => exact zpY_law _ h
  case abs => exact abs_law _ _ h
  case abx => obtain ⟨hf, ha⟩ := absX_law (operand1 i) (operand2 i) h; exact ⟨hf, ha.1, ha⟩
  case aby => obtain ⟨hf, ha⟩ := absY_law (operand1 i) (operand2 i) h; exact ⟨hf, ha.1, ha⟩
  case izx => exact izx_law _ h
  case izy => obtain ⟨hf, ha⟩ := izy_law (operand1 i) h; exact ⟨hf, ha.1, ha⟩
  case imp | acc | imm | ind | rel | jam => cases hm

/-! ## The last cycles of each class -/

/-- The last bus cycles of an access at `ea`, from s to t: the read; the write; or the write of the byte read there, the poll
and the write of the result (R53, R76, R77, R78). -/
def Access.LastCycles : Access → Word → State → State → Prop
  | .read _, ea, s, t => ∃ u, u.kept = s.kept ∧ t = { cpuRead ea u with regs := t.regs }
  | .write _, ea, s, t => ∃ u v, u.kept = s.kept ∧ t = { cpuWrite ea v u with regs := t.regs }
  | .modify _ _, ea, s, t => ∃ u v, u.kept = s.kept ∧
      t = { cpuWrite ea v (poll (cpuWrite ea u.cpuBus u)) with regs := t.regs } ∧
      ∀ b, memByte s ea = some b → u.cpuBus = b

theorem mapRegs_cpuRead_lastCycles (f : Byte → Regs → Regs) (r : Regs → Regs) {ea : Word} {s u : State}
    (h : u.kept = s.kept) : (Access.read f).LastCycles ea s ((cpuRead ea u).mapRegs r) := ⟨u, h, rfl⟩

theorem cpuWrite_lastCycles (value : Regs → Byte) {ea : Word} {v : Byte} {s u : State} (h : u.kept = s.kept) :
    (Access.write value).LastCycles ea s (cpuWrite ea v u) := by
  refine ⟨u, v, h, ?_⟩
  generalize cpuWrite ea v u = t -- the write stays opaque: only its registers are put back
  rfl

theorem modifyAt_lastCycles (g : Bool → Byte → Byte) (f : Byte → Byte → Regs → Regs) (ea : Word) {n : Nat} {s t : State}
    (h : Fetched n s t) : (Access.modify g f).LastCycles ea s (modifyAt g f ea t) :=
  ⟨cpuRead ea t, _, (h.read ea).2, rfl, h.reads ea⟩

/-- An indexed read ends with a read of EA: the second one on a page cross, else the one of the uncorrected address (R76). -/
theorem readIndexed_lastCycles (f : Byte → Regs → Regs) {n : Nat} {s : State} {e : Indexed} {base : Word} {index : Byte}
    (h : Fetched n s e.st) (he : IndexedAt e base index) : (Access.read f).LastCycles e.ea s (readIndexed f e) := by
  unfold readIndexed
  cases hc : e.crossed with
  | true => exact mapRegs_cpuRead_lastCycles f _ (h.read e.raw).poll.2
  | false =>
    rw [← raw_eq_ea he hc]
    exact mapRegs_cpuRead_lastCycles f _ h.poll.2

theorem Access.run_lastCycles (c : Access) {i : Instr} {s : State} {e : Plain ⊕ Indexed} (he : Located i s e) :
    c.LastCycles (effAddr i s) s (c.run e) := by
  cases e with
  | inl e =>
    obtain ⟨hf, hea⟩ := he
    rw [← hea]
    cases c with
    | read f => exact mapRegs_cpuRead_lastCycles f _ hf.poll.2
    | write value => exact cpuWrite_lastCycles value hf.poll.2
    | modify g f => exact modifyAt_lastCycles g f e.ea hf
  | inr e =>
    obtain ⟨hf, hea, hat⟩ := he
    have hraw := hf.read e.raw
    rw [← hea]
    cases c with
    | read f => exact readIndexed_lastCycles f hf hat
    | write value => exact cpuWrite_lastCycles value hraw.poll.2
    | modify g f => exact modifyAt_lastCycles g f e.ea hraw

theorem exec_lastCycles {i : Instr} {c : Access} {s : State} (hr : Runs i s) (hm : addressMode i.mode = true)
    (hc : accessOf i.mnemonic = some c) : ∃ t, exec i s = .next t ∧ c.LastCycles (effAddr i s) s t :=
  ⟨_, exec_of_access hr hm hc, c.run_lastCycles (addressed_law s hm)⟩

/-- Settles O28: the mnemonics of each list have the class of the list, whose last cycles `exec_lastCycles` gives. -/
theorem lastCyclesOfAnInstruction : Obligations.LastCyclesOfAnInstruction := by
  unfold Obligations.LastCyclesOfAnInstruction
  intro i s hr himm himp hacc
  have ends {c : Access} (hc : accessOf i.mnemonic = some c) : ∃ t, exec i s = .next t ∧ c.LastCycles (effAddr i s) s t :=
    exec_lastCycles hr (addressMode_of_access hc himm himp hacc) hc
  refine ⟨fun hread => ?_, fun hwrite => ?_, fun hmodify => ?_⟩
  · obtain ⟨f, hc⟩ := accessOf_read hread
    obtain ⟨t, ht, u, hlast⟩ := ends hc
    exact ⟨t, u, ht, hlast⟩
  · obtain ⟨value, hc⟩ := accessOf_write hwrite
    obtain ⟨t, ht, u, v, hlast⟩ := ends hc
    exact ⟨t, u, v, ht, hlast⟩
  · obtain ⟨g, f, hc⟩ := accessOf_modify hmodify
    obtain ⟨t, ht, u, v, hlast⟩ := ends hc
    exact ⟨t, u, v, ht, hlast⟩

end Sys2Proof.Machine
end

section
/-!
PROOFS. What one step can do, said once. `exec_completes` and `step_completes`: a step is a first CPU read, then bus cycles
and changes inside the CPU (`Path`), then an end in which no bus takes part (`Ends`). `routeWrite_effect` says what one
write can change. An invariant of every step follows by induction on the path, with one case for a bus cycle.
-/

namespace Sys2Proof.Machine

/-! ## Bus cycles and paths of them -/

/-- The accesses that a cycle is made around: a read, the get cycle of a DMC DMA, a write (R16, R203). -/
inductive BusAccess : (State → State) → Prop
  | read (a : Word) : BusAccess (readAccess a)
  | sample : BusAccess dmcAccess
  | write (a : Word) (v : Byte) : BusAccess (writeAccess a v)

/-- What the CPU does between bus cycles. Only where `unmasks` holds may a change of the registers clear I before an
instruction's end: only RTI does (R140, R187). -/
inductive Internal (unmasks : Prop) (s : State) : State → Prop
  | regs (f : Regs → Regs) (h : unmasks ∨ ∀ r, r.p.i = true → (f r).p.i = true) : Internal unmasks s (s.mapRegs f)
  | poll : Internal unmasks s (poll s)
  | draws (n : Nat) : Internal unmasks s { s with draws := n }
  | dropNmi : Internal unmasks s { s with nmiPending := false }
  | takeOam : Internal unmasks s { s with oamDma := none }

/-- The states that bus cycles and the CPU's changes between them reach from s. -/
inductive Path (unmasks : Prop) (s : State) : State → Prop
  | start : Path unmasks s s
  | cycle {t : State} {access : State → State} (h : Path unmasks s t) (ha : BusAccess access) :
      Path unmasks s (cycle access t)
  | internal {t u : State} (h : Path unmasks s t) (hi : Internal unmasks t u) : Path unmasks s u

/-- The end of a step, after its last cycle: the registers and the CPU's conditions change, and a choice of interrupt is at
most dropped. -/
inductive Ends (u : State) : State → Prop
  | mk (regs : Regs) (halted resetPending : Bool) (fatal : Option FatalKind) (intNext : Option IntKind)
      (h : intNext = u.intNext ∨ intNext = none) :
      Ends u { u with regs := regs, halted := halted, resetPending := resetPending, fatal := fatal, intNext := intNext }

/-- `t` ends a path from s. -/
def Completes (unmasks : Prop) (s t : State) : Prop := ∃ u, Path unmasks s u ∧ Ends u t

theorem ends_refl (u : State) : Ends u u := .mk _ _ _ _ _ (.inl rfl)

theorem ends_mapRegs (f : Regs → Regs) (u : State) : Ends u (u.mapRegs f) := .mk _ _ _ _ _ (.inl rfl)

theorem ends_fatal (k : FatalKind) (u : State) : Ends u { u with fatal := some k } := .mk _ _ _ _ _ (.inl rfl)

theorem ends_halted (u : State) : Ends u { u with halted := true } := .mk _ _ _ _ _ (.inl rfl)

theorem ends_noInterrupt (u : State) : Ends u { u with intNext := none } := .mk _ _ _ _ _ (.inr rfl)

section Paths

variable {unmasks : Prop} {s t : State} (h : Path unmasks s t)
include h

theorem Path.completes : Completes unmasks s t := ⟨t, h, ends_refl t⟩

/-! ## DMA and CPU accesses -/

theorem dmcSlot_path (a : Word) : Path unmasks s (dmcSlot a t) := by
  unfold dmcSlot
  split
  · exact (h.cycle .sample).cycle (.read a)
  · exact h

theorem oamByte_path (a src : Word) : Path unmasks s (oamByte a src t) :=
  ((dmcSlot_path (dmcSlot_path h a) a).cycle (.read src)).cycle (.write _ _)

omit h in
theorem oamBytes_path (a : Word) (page : Byte) (n i : Nat) {t : State} (h : Path unmasks s t) :
    Path unmasks s (oamBytes a page n i t) := by
  induction n generalizing i t with
  | zero => exact h
  | succ n ih => exact ih _ (oamByte_path h _ _)

theorem runOam_path (a : Word) (page : Byte) : Path unmasks s (runOam a page t) := by
  have halt := (h.internal .takeOam).cycle (.read a)
  unfold runOam
  dsimp only
  split
  · exact oamBytes_path _ _ _ _ (halt.cycle (.read a))
  · exact oamBytes_path _ _ _ _ halt

theorem runDmc_path (a : Word) : Path unmasks s (runDmc a t) := by
  have dummy := (h.cycle (.read a)).cycle (.read a)
  unfold runDmc
  dsimp only
  split
  · exact (dummy.cycle (.read a)).cycle .sample
  · exact dummy.cycle .sample

theorem serviceOam_path (a : Word) : Path unmasks s (serviceOam a t) := by
  unfold serviceOam
  cases t.oamDma with
  | none => exact h
  | some page => exact runOam_path h a page

theorem serviceDmc_path (a : Word) : Path unmasks s (serviceDmc a t) := by
  unfold serviceDmc
  split
  · exact runDmc_path h a
  · exact h

theorem serviceDma_path (a : Word) : Path unmasks s (serviceDma a t) := serviceDmc_path (serviceOam_path h a) a

theorem cpuRead_path (a : Word) : Path unmasks s (cpuRead a t) := (serviceDma_path h a).cycle (.read a)

theorem cpuWrite_path (a : Word) (v : Byte) : Path unmasks s (cpuWrite a v t) := h.cycle (.write a v)

/-! ## The named operations -/

theorem mapRegs_path {f : Regs → Regs} (hf : ∀ r, r.p.i = true → (f r).p.i = true) : Path unmasks s (t.mapRegs f) :=
  h.internal (.regs f (.inr hf))

theorem jump_path (a : Word) : Path unmasks s (t.jump a) := mapRegs_path (f := fun r => { r with pc := a }) h fun _ hi => hi

theorem setSp_path (v : Byte) : Path unmasks s (t.setSp v) := mapRegs_path (f := fun r => { r with sp := v }) h fun _ hi => hi

theorem poll_path : Path unmasks s (poll t) := h.internal .poll

theorem readPc_path : Path unmasks s (readPc t) := jump_path (cpuRead_path h _) _

theorem dummyPc_path : Path unmasks s (dummyPc t) := cpuRead_path h _

theorem dummyStack_path : Path unmasks s (dummyStack t) := cpuRead_path h _

theorem push_path (v : Byte) : Path unmasks s (push v t) := setSp_path (cpuWrite_path h _ v) _

theorem pull_path : Path unmasks s (pull t) := cpuRead_path (setSp_path h _) _

theorem jumpThrough_path (a a' : Word) : Path unmasks s (jumpThrough a a' t) :=
  jump_path (cpuRead_path (cpuRead_path h a) a') _

theorem suppressedPush_path : Path unmasks s (suppressedPush t) := setSp_path (dummyStack_path h) _

theorem chooseVector_path (nmi : Bool) : Path unmasks s (chooseVector nmi t).2 := by
  unfold chooseVector
  split
  · exact h.internal .dropNmi
  · exact h

theorem opSei_path : Path unmasks s (t.mapRegs opSei) := mapRegs_path h fun _ _ => rfl

theorem enterInterrupt_completes (b nmi : Bool) : Completes unmasks s (enterInterrupt b nmi t) := by
  have hv := chooseVector_path (push_path (push_path h (hiByte t.regs.pc)) (loByte (push (hiByte t.regs.pc) t).regs.pc)) nmi
  unfold enterInterrupt
  dsimp only
  generalize chooseVector nmi _ = c at hv ⊢
  exact ⟨_, jumpThrough_path (opSei_path (push_path hv _)) _ _, ends_noInterrupt _⟩

/-! ## The access classes and the instructions that are none -/

theorem implied_completes (f : Regs → Regs) : Completes unmasks s (implied f t) :=
  ⟨_, dummyPc_path (poll_path h), ends_mapRegs _ _⟩

theorem immediate_completes (f : Byte → Regs → Regs) (m : Byte) : Completes unmasks s (immediate f m t) :=
  ⟨_, readPc_path (poll_path h), ends_mapRegs _ _⟩

theorem immediateDraw_completes (draw : Nat → Byte) (f : Byte → Byte → Regs → Regs) (m : Byte) :
    Completes unmasks s (immediateDraw draw f m t) := by
  have hp := readPc_path (poll_path h)
  unfold immediateDraw immediate
  generalize readPc (poll t) = u at hp ⊢
  exact ⟨_, hp.internal (.draws (u.draws + 1)), .mk _ _ _ _ _ (.inl rfl)⟩

theorem pushReg_completes (value : Regs → Byte) : Completes unmasks s (pushReg value t) :=
  (push_path (poll_path (dummyPc_path h)) _).completes

theorem pullReg_completes (f : Byte → Regs → Regs) : Completes unmasks s (pullReg f t) :=
  ⟨_, pull_path (poll_path (dummyStack_path (dummyPc_path h))), ends_mapRegs _ _⟩

theorem jumpAbs_completes (lo hi : Byte) : Completes unmasks s (jumpAbs lo hi t) :=
  (jump_path (dummyPc_path (poll_path (readPc_path h))) _).completes

theorem jumpIndirect_completes (lo hi : Byte) : Completes unmasks s (jumpIndirect lo hi t) :=
  (jump_path (cpuRead_path (poll_path (cpuRead_path (dummyPc_path (readPc_path h)) _)) _) _).completes

theorem jumpSubroutine_completes (lo hi : Byte) : Completes unmasks s (jumpSubroutine lo hi t) :=
  (jump_path (dummyPc_path (poll_path (push_path (push_path (dummyStack_path (readPc_path h)) _) _))) _).completes

theorem returnSubroutine_completes : Completes unmasks s (returnSubroutine t) :=
  (jump_path (cpuRead_path (poll_path (pull_path (pull_path (dummyStack_path (dummyPc_path h))))) _) _).completes

theorem breakSequence_completes : Completes unmasks s (breakSequence t) := enterInterrupt_completes (readPc_path h) _ _

theorem branch_completes (taken : Flags → Bool) (off : Byte) : Completes unmasks s (branch taken off t) := by
  have hp := readPc_path (poll_path h)
  unfold branch
  dsimp only
  split
  · split
    · exact (jump_path (dummyPc_path hp) _).completes
    · exact (jump_path (cpuRead_path (poll_path (dummyPc_path hp)) _) _).completes
  · exact hp.completes

theorem modifyAt_completes (g : Bool → Byte → Byte) (f : Byte → Byte → Regs → Regs) (ea : Word) :
    Completes unmasks s (modifyAt g f ea t) :=
  ⟨_, cpuWrite_path (poll_path (cpuWrite_path (cpuRead_path h ea) ea _)) ea _, ends_mapRegs _ _⟩

theorem absIndexed_path (index : Regs → Byte) (lo hi : Byte) : Path unmasks s (absIndexed index lo hi t).st :=
  readPc_path (readPc_path h)

theorem izy_path (z : Byte) : Path unmasks s (izy z t).st := cpuRead_path (cpuRead_path (readPc_path h) _) _

theorem returnFromInterrupt_completes (hu : unmasks) : Completes unmasks s (returnFromInterrupt t) :=
  (jump_path (pull_path (poll_path (pull_path ((pull_path (dummyStack_path h)).internal (.regs _ (.inl hu)))))) _).completes

end Paths

/-! ## Instructions -/

/-- The state that an addressing mode leaves. -/
def stateOf : Plain ⊕ Indexed → State
  | .inl e => e.st
  | .inr e => e.st

theorem addressed_path (i : Instr) {unmasks : Prop} {s t : State} (h : Path unmasks s t) :
    Path unmasks s (stateOf (addressed i t)) := by
  have hp := readPc_path h
  unfold addressed
  cases i.mode
  case zp => exact hp
  case zpx | zpy => exact cpuRead_path hp _
  case abs => exact readPc_path hp
  case abx | aby => exact absIndexed_path h _ _ _
  case izx => exact cpuRead_path (cpuRead_path (cpuRead_path hp _) _) _
  case izy => exact izy_path h _
  case imp | acc | imm | ind | rel | jam => exact h

theorem readIndexed_completes (f : Byte → Regs → Regs) {e : Indexed} {unmasks : Prop} {s : State}
    (h : Path unmasks s e.st) : Completes unmasks s (readIndexed f e) := by
  unfold readIndexed
  dsimp only
  split
  · exact ⟨_, cpuRead_path (poll_path (cpuRead_path h e.raw)) e.ea, ends_mapRegs _ _⟩
  · exact ⟨_, cpuRead_path (poll_path h) e.raw, ends_mapRegs _ _⟩

theorem storeHigh_path (due : Nat) (value : Regs → Byte) {e : Indexed} {unmasks : Prop} {s : State}
    (h : Path unmasks s e.st) : Path unmasks s (storeHigh due value e) :=
  cpuWrite_path (poll_path ((cpuRead_path h e.raw).internal (.draws _))) _ _

theorem Access.run_completes (c : Access) {e : Plain ⊕ Indexed} {unmasks : Prop} {s : State}
    (h : Path unmasks s (stateOf e)) : Completes unmasks s (c.run e) := by
  cases c with
  | read f =>
    cases e with
    | inl e => exact ⟨_, cpuRead_path (poll_path h) e.ea, ends_mapRegs _ _⟩
    | inr e => exact readIndexed_completes f h
  | write value =>
    cases e with
    | inl e => exact (cpuWrite_path (poll_path h) e.ea _).completes
    | inr e => exact (cpuWrite_path (poll_path (cpuRead_path h e.raw)) e.ea _).completes
  | modify g f =>
    cases e with
    | inl e => exact modifyAt_completes h g f e.ea
    | inr e => exact modifyAt_completes (cpuRead_path h e.raw) g f e.ea

/-- An instruction completes when what follows its opcode fetch does; in strict mode an unofficial one ends there (R174). -/
theorem completes_of_arm {i : Instr} {k : State → State} {s : State} (harm : exec i s = .next (afterFetch i k s))
    (hk : ∀ {unmasks : Prop} {s t : State}, (i = .rti → unmasks) → Path unmasks s t → Completes unmasks s (k t)) :
    ∃ t, exec i s = .next t ∧ Completes (i = .rti) (cpuRead s.regs.pc s) t := by
  refine ⟨_, harm, ?_⟩
  have hp : Path (i = .rti) (cpuRead s.regs.pc s) (readPc s) := jump_path .start _
  unfold afterFetch
  cases i.official with
  | true => exact hk id hp
  | false =>
    show Completes _ _ (unofficial i.opcode k s)
    unfold unofficial
    dsimp only
    split
    · exact ⟨_, hp, ends_fatal _ _⟩
    · exact hk id hp

/-- Every instruction completes: a first read, at PC, and then bus cycles and changes inside the CPU, in which RTI alone can
clear I before the end. -/
theorem exec_completes (i : Instr) (s : State) :
    ∃ t, exec i s = .next t ∧ Completes (i = .rti) (cpuRead s.regs.pc s) t := by
  by_cases hclass : addressMode i.mode = true ∧ ∃ c, accessOf i.mnemonic = some c
  · obtain ⟨hm, c, hc⟩ := hclass
    exact completes_of_arm (exec_arm hm hc s) fun _ h => c.run_completes (addressed_path i h)
  cases i
  case clc | sec | cli | sei | clv | cld | sed | nop | tax | tay | txa | tya | tsx | txs | inx | iny | dex | dey
      | aslAcc | lsrAcc | rolAcc | rorAcc | nop1A | nop3A | nop5A | nop7A | nopDA | nopFA =>
    exact completes_of_arm (k := implied _) rfl fun _ h => implied_completes h _
  case ldaImm | ldxImm | ldyImm | adcImm | sbcImm | usbcImm | andImm | oraImm | eorImm | cmpImm | cpxImm | cpyImm
      | ancImm0B | ancImm2B | alrImm | arrImm | sbxImm | nopImm80 | nopImm82 | nopImm89 | nopImmC2 | nopImmE2 =>
    exact completes_of_arm (k := immediate _ _) rfl fun _ h => immediate_completes h _ _
  case aneImm | lxaImm =>
    exact completes_of_arm (k := immediateDraw _ _ _) rfl fun _ h => immediateDraw_completes h _ _ _
  case bpl | bmi | bvc | bvs | bcc | bcs | bne | beq =>
    exact completes_of_arm (k := branch _ _) rfl fun _ h => branch_completes h _ _
  case pha | php => exact completes_of_arm (k := pushReg _) rfl fun _ h => pushReg_completes h _
  case pla | plp => exact completes_of_arm (k := pullReg _) rfl fun _ h => pullReg_completes h _
  case jmpAbs => exact completes_of_arm (k := jumpAbs _ _) rfl fun _ h => jumpAbs_completes h _ _
  case jmpInd => exact completes_of_arm (k := jumpIndirect _ _) rfl fun _ h => jumpIndirect_completes h _ _
  case jsr => exact completes_of_arm (k := jumpSubroutine _ _) rfl fun _ h => jumpSubroutine_completes h _ _
  case rts => exact completes_of_arm (k := returnSubroutine) rfl fun _ h => returnSubroutine_completes h
  case brk => exact completes_of_arm (k := breakSequence) rfl fun _ h => breakSequence_completes h
  case rti =>
    exact completes_of_arm (k := fun t => returnFromInterrupt (dummyPc t)) rfl
      fun hu h => returnFromInterrupt_completes (dummyPc_path h) (hu rfl)
  case shaAby | shxAby | shyAbx =>
    exact completes_of_arm (k := fun t => storeHigh _ _ (absIndexed _ _ _ t)) rfl
      fun _ h => (storeHigh_path _ _ (absIndexed_path h _ _ _)).completes
  case shaIzy =>
    exact completes_of_arm (k := fun t => storeHigh _ _ (izy _ t)) rfl
      fun _ h => (storeHigh_path _ _ (izy_path h _)).completes
  case tasAby =>
    exact completes_of_arm (k := fun t => (storeHigh _ _ (absIndexed _ _ _ t)).mapRegs _) rfl
      fun _ h => ⟨_, storeHigh_path _ _ (absIndexed_path h _ _ _), ends_mapRegs _ _⟩
  case jam02 | jam12 | jam22 | jam32 | jam42 | jam52 | jam62 | jam72 | jam92 | jamB2 | jamD2 | jamF2 =>
    exact completes_of_arm (k := fun t => { t with halted := true }) rfl fun _ h => ⟨_, h, ends_halted _⟩
  all_goals exact absurd ⟨rfl, _, rfl⟩ hclass

/-! ## Steps -/

theorem resetSequence_completes (s : State) : Completes True (cpuRead s.regs.pc s) (resetSequence s) := by
  have hp : Path True (cpuRead s.regs.pc s) (dummyPc s) := .start
  have hs := suppressedPush_path (suppressedPush_path (suppressedPush_path (dummyPc_path hp)))
  unfold resetSequence
  exact ⟨_, jumpThrough_path (opSei_path hs) _ _, .mk _ _ _ _ _ (.inr rfl)⟩

theorem interruptSequence_completes (kind : IntKind) (s : State) :
    Completes True (cpuRead s.regs.pc s) (interruptSequence kind s) := by
  have hp : Path True (cpuRead s.regs.pc s) (dummyPc s) := .start
  exact enterInterrupt_completes (dummyPc_path hp) _ _

/-- A step is a first CPU read and a path from it to an end, whether it is an instruction, an interrupt sequence, the reset
sequence or a halted cycle (R288). -/
theorem step_completes {s t : State} (h : step s = .next t) : ∃ unmasks a, Completes unmasks (cpuRead a s) t := by
  unfold step at h
  split at h
  · cases h
  split at h
  · rw [← Host.Outcome.next.inj h]
    exact ⟨_, _, resetSequence_completes s⟩
  split at h
  · rw [← Host.Outcome.next.inj h]
    exact ⟨True, _, Path.start.completes⟩
  split at h
  · rw [← Host.Outcome.next.inj h]
    exact ⟨_, _, interruptSequence_completes _ s⟩
  · obtain ⟨u, hu, hc⟩ := exec_completes (fetchInstr s) s
    rw [← Host.Outcome.next.inj (hu.symm.trans h)]
    exact ⟨_, _, hc⟩

end Sys2Proof.Machine
end

section
/-!
PROOFS. What one write can change, and by induction on a step's path: every memory stays canonical and within its size
(O38), ROM, header, mapper and parameters stay, and time moves on (O40).
-/

namespace Sys2Proof.Machine

/-! ## The effect of one write -/

/-- What a write changes: one cell of a memory, within its size; the MMC3's registers; or no memory at all (R196, R199, R208,
R210). -/
inductive WriteEffect (s : State) : State → Prop
  | device (ppu : Ppu) (apu : Apu) (oamDma : Option Byte) (dmcDma : Bool) (port0 port1 : Controller) (strobe : Bool) :
      WriteEffect s { s with
        ppu := ppu, apu := apu, oamDma := oamDma, dmcDma := dmcDma, port0 := port0, port1 := port1, strobe := strobe }
  | wram (o : Nat) (v : Byte) (ho : o < 2048) : WriteEffect s { s with wram := s.wram.set o v }
  | ciram (ppu : Ppu) (o : Nat) (v : Byte) (ho : o < 2048) : WriteEffect s { s with ppu := ppu, ciram := s.ciram.set o v }
  | fourScreen (ppu : Ppu) (o : Nat) (v : Byte) (ho : o < 4096) :
      WriteEffect s { s with ppu := ppu, cart := { s.cart with fourScreen := s.cart.fourScreen.set o v } }
  | chrRam (ppu : Ppu) (o : Nat) (v : Byte) (hr : s.cart.chrIsRam = true) (ho : o < 8192) :
      WriteEffect s { s with ppu := ppu, cart := { s.cart with chr := s.cart.chr.set o v } }
  | prgRam (o : Nat) (v : Byte) (ho : o < 8192) :
      WriteEffect s { s with cart := { s.cart with prgRam := s.cart.prgRam.set o v } }
  | mmc3 (r : Mmc3) : WriteEffect s { s with cart := { s.cart with mmc3 := r } }

theorem WriteEffect.ppu (s : State) (q : Ppu) : WriteEffect s { s with ppu := q } := .device q _ _ _ _ _ _

theorem ntOffset_lt_fourScreen (c : Cartridge) (a : PpuAddr) : c.ntOffset a < 4096 := by
  unfold Cartridge.ntOffset
  dsimp only
  split
  · omega
  split <;> omega

theorem ntOffset_lt_ciram {c : Cartridge} (h : c.header.fourScreen = false) (a : PpuAddr) : c.ntOffset a < 2048 := by
  unfold Cartridge.ntOffset
  dsimp only
  rw [h]
  split
  · contradiction
  split <;> omega

/-- CHR RAM is one 8 KiB unit on either board. -/
theorem chrOffset_lt {c : Cartridge} (h : c.chrIsRam = true) (a : PpuAddr) : c.chrOffset a < 8192 := by
  have hbanks : c.chrBanks = 8 := if_pos h
  unfold Cartridge.chrOffset
  split
  · omega
  · rw [hbanks]
    omega

theorem ppuWrite_effect (a : PpuAddr) (v : Byte) (s : State) (q : Ppu) : WriteEffect s (ppuWrite a v { s with ppu := q }) := by
  unfold ppuWrite Cartridge.chrWrite
  dsimp only
  split
  · split
    · next hr => exact .chrRam q _ v hr (chrOffset_lt hr a)
    · exact .ppu s q
  split
  · exact .fourScreen q _ v (ntOffset_lt_fourScreen _ a)
  · next hf => exact .ciram q _ v (ntOffset_lt_ciram (by simpa using hf) a)

theorem writeData_effect (v : Byte) (s : State) (q : Ppu) : WriteEffect s (writeData v { s with ppu := q }) := by
  unfold writeData
  dsimp only
  split
  · exact .ppu s _
  split
  · exact ppuWrite_effect _ v s q.stepV
  · exact .ppu s _

theorem ppuRegWrite_effect (r : BitVec 3) (v : Byte) (s : State) : WriteEffect s (ppuRegWrite r v s) := by
  unfold ppuRegWrite
  dsimp only
  iterate 7
    split
    · exact .ppu s _
  exact writeData_effect v s _

theorem cartWrite_effect (a : Word) (v : Byte) (s : State) :
    WriteEffect s { s with cart := s.cart.cpuWrite s.params a v } := by
  unfold Cartridge.cpuWrite
  split
  · exact .mmc3 s.cart.mmc3
  split
  · split
    · exact .prgRam _ v (Nat.mod_lt _ (by decide))
    · exact .mmc3 s.cart.mmc3
  split
  · exact .mmc3 s.cart.mmc3
  · exact .mmc3 _

theorem routeWrite_effect (a : Word) (v : Byte) (s : State) : WriteEffect s (routeWrite a v s) := by
  unfold routeWrite writeStrobe
  split
  · exact .wram _ v (Nat.mod_lt _ (by decide))
  split
  · exact ppuRegWrite_effect _ v s
  split
  · exact .device _ _ _ _ _ _ _
  split
  · exact .device _ _ _ _ _ _ _
  split
  · split <;> exact .device _ _ _ _ _ _ _
  split
  · exact .device _ _ _ _ _ _ _
  split
  · exact .device _ _ _ _ _ _ _
  · exact cartWrite_effect a v s

/-! ## What paths keep -/

/-- What a cycle does to the kept state is the effect of one write; a read and the fetch of a sample have none. -/
theorem BusAccess.effect {access : State → State} (h : BusAccess access) (s : State) :
    ∃ u w, u.kept = s.kept ∧ WriteEffect u w ∧ (cycle access s).kept = w.kept := by
  cases h with
  | read a => exact ⟨s, s, rfl, .ppu s s.ppu, (cycle_same _ (readAccess_same a) s).2⟩
  | sample => exact ⟨s, s, rfl, .ppu s s.ppu, (cycle_same _ dmcAccess_same s).2⟩
  | write a v =>
    obtain ⟨u, hu, hw, -⟩ := cpuWrite_eq a v s
    exact ⟨u, _, hu.2, routeWrite_effect a v u, hw.2⟩

theorem Internal.kept {unmasks : Prop} {s t : State} (h : Internal unmasks s t) : t.kept = s.kept := by
  cases h <;> rfl

/-- An invariant of the kept state holds after a step if no write breaks it and no end does. -/
theorem step_induction {P : State → Prop} (hkept : ∀ {s t : State}, t.kept = s.kept → P s → P t)
    (hwrite : ∀ {s t : State}, WriteEffect s t → P s → P t) (hends : ∀ {s t : State}, Ends s t → P s → P t)
    {s t : State} (h : step s = .next t) (hs : P s) : P t := by
  obtain ⟨unmasks, a, u, hpath, hend⟩ := step_completes h
  refine hends hend ?_
  clear hend
  induction hpath with
  | start => exact hkept (cpuRead_same a s).2 hs
  | internal _ hi ih => exact hkept hi.kept ih
  | cycle _ ha ih =>
    obtain ⟨v, w, hv, hw, hc⟩ := ha.effect _
    exact hkept hc (hwrite hw (hkept hv ih))

/-! ## Memories (R43) -/

theorem MemoryInv.of_kept {s t : State} (h : t.kept = s.kept) (hs : MemoryInv s) : MemoryInv t := by
  have hk : MemoryInv s.kept := hs
  rw [← h] at hk
  exact hk

/-- A memory in canonical form within its size stays so after a write within that size. -/
theorem Memory.fits_set {n o : Nat} {m : Memory} (v : Byte) (ho : o < n) (h : m.wf ∧ m.below n) :
    (m.set o v).wf ∧ (m.set o v).below n :=
  ⟨Memory.wf_set o v h.1, Memory.below_set v ho h.2⟩

theorem WriteEffect.memoryInv {s t : State} (h : WriteEffect s t) (hs : MemoryInv s) : MemoryInv t := by
  obtain ⟨hwram, hciram, hprgRam, hfour, hrom, hchr, hchrRam⟩ := hs
  cases h with
  | device | mmc3 => exact ⟨hwram, hciram, hprgRam, hfour, hrom, hchr, hchrRam⟩
  | wram o v ho => exact ⟨Memory.fits_set v ho hwram, hciram, hprgRam, hfour, hrom, hchr, hchrRam⟩
  | ciram _ o v ho => exact ⟨hwram, Memory.fits_set v ho hciram, hprgRam, hfour, hrom, hchr, hchrRam⟩
  | prgRam o v ho => exact ⟨hwram, hciram, Memory.fits_set v ho hprgRam, hfour, hrom, hchr, hchrRam⟩
  | fourScreen _ o v ho => exact ⟨hwram, hciram, hprgRam, Memory.fits_set v ho hfour, hrom, hchr, hchrRam⟩
  | chrRam _ o v hr ho =>
    obtain ⟨hwf, hbelow⟩ := Memory.fits_set v ho ⟨hchr, hchrRam hr⟩
    exact ⟨hwram, hciram, hprgRam, hfour, hrom, hwf, fun _ => hbelow⟩

theorem Ends.memoryInv {s t : State} (h : Ends s t) (hs : MemoryInv s) : MemoryInv t := by
  cases h
  exact hs

/-- Settles O38: no write breaks the invariant, and nothing else of a step touches a memory. -/
theorem memoriesStayCanonical : Obligations.MemoriesStayCanonical := by
  unfold Obligations.MemoriesStayCanonical
  intro s t hs h
  exact step_induction MemoryInv.of_kept WriteEffect.memoryInv Ends.memoryInv h hs

/-! ## ROM, header, mapper and parameters (R11, R208, R211, R216) -/

/-- What is fixed for a run: PRG ROM, header, mapper, parameters, and CHR where it is ROM. -/
structure RomSame (s t : State) : Prop where
  prgRom : t.cart.prgRom = s.cart.prgRom
  header : t.cart.header = s.cart.header
  mapper : t.cart.mapper = s.cart.mapper
  params : t.params = s.params
  chr : s.cart.chrIsRam = false → t.cart.chr = s.cart.chr

theorem RomSame.trans {s t u : State} (h : RomSame s t) (k : RomSame t u) : RomSame s u where
  prgRom := k.prgRom.trans h.prgRom
  header := k.header.trans h.header
  mapper := k.mapper.trans h.mapper
  params := k.params.trans h.params
  chr hr := by
    have ht : t.cart.chrIsRam = false := by rw [Cartridge.chrIsRam, h.header]; exact hr
    exact (k.chr ht).trans (h.chr hr)

theorem RomSame.of_kept {s t : State} (h : t.kept = s.kept) : RomSame s t :=
  ⟨kept_prgRom h, kept_header h, kept_mapper h, kept_params h, fun _ => kept_chr h⟩

theorem WriteEffect.romSame {s t : State} (h : WriteEffect s t) : RomSame s t := by
  cases h with
  | chrRam _ _ _ hr => exact ⟨rfl, rfl, rfl, rfl, fun hf => absurd hr (by simp [hf])⟩
  | _ => exact ⟨rfl, rfl, rfl, rfl, fun _ => rfl⟩

theorem Ends.romSame {s t : State} (h : Ends s t) : RomSame s t := by
  cases h
  exact ⟨rfl, rfl, rfl, rfl, fun _ => rfl⟩

theorem step_romSame {s t : State} (h : step s = .next t) : RomSame s t :=
  step_induction (P := RomSame s) (fun hk hs => hs.trans (.of_kept hk)) (fun hw hs => hs.trans hw.romSame)
    (fun he hs => hs.trans he.romSame) h (.of_kept rfl)

/-! ## Time (R39) -/

theorem BusAccess.cpuCycle {access : State → State} (h : BusAccess access) (s : State) :
    (cycle access s).cpuCycle = s.cpuCycle + 1 := by
  refine cycle_cpuCycle access (fun t => ?_) s
  cases h with
  | read a => exact (readAccess_time a t).1
  | write a v => exact writeAccess_cpuCycle a v t
  | sample =>
    have hr := (readAccess_time t.apu.dmc.address t).1
    unfold dmcAccess dmcDone
    dsimp only
    split <;> exact hr

theorem Path.cpuCycle_le {unmasks : Prop} {s t : State} (h : Path unmasks s t) : s.cpuCycle ≤ t.cpuCycle := by
  induction h with
  | start => exact Nat.le_refl _
  | cycle _ ha ih =>
    rw [ha.cpuCycle]
    exact Nat.le_succ_of_le ih
  | internal _ hi ih => cases hi <;> exact ih

/-- A CPU read takes its own cycle and those of the DMA before it. -/
theorem cpuRead_cpuCycle_lt (a : Word) (s : State) : s.cpuCycle < (cpuRead a s).cpuCycle := by
  have hdma := (serviceDma_path (unmasks := True) .start a : Path _ s (serviceDma a s)).cpuCycle_le
  rw [cpuRead, (BusAccess.read a).cpuCycle]
  exact Nat.lt_succ_of_le hdma

theorem Ends.cpuCycle {s t : State} (h : Ends s t) : t.cpuCycle = s.cpuCycle := by
  cases h
  rfl

/-- Every step takes a cycle at least: its first read. -/
theorem step_cpuCycle_lt {s t : State} (h : step s = .next t) : s.cpuCycle < t.cpuCycle := by
  obtain ⟨unmasks, a, u, hpath, hend⟩ := step_completes h
  rw [hend.cpuCycle]
  exact Nat.lt_of_lt_of_le (cpuRead_cpuCycle_lt a s) hpath.cpuCycle_le

/-- Settles O40: `RomSame` is kept by every write and by all else of a step, and a step's first read takes time. -/
theorem romNeverChanges : Obligations.RomNeverChanges := by
  unfold Obligations.RomNeverChanges
  intro s t h
  obtain ⟨hrom, hheader, hmapper, hparams, hchr⟩ := step_romSame h
  exact ⟨hrom, hheader, hmapper, hparams, hchr, step_cpuCycle_lt h⟩

end Sys2Proof.Machine
end

section
/-!
PROOFS. The interrupt mask (R30, R182): with I set, no cycle and no poll chooses an IRQ, so that O32 follows by induction on
an instruction's path.
-/

namespace Sys2Proof.Machine

/-- I is set and no IRQ is chosen. -/
def Masked (s : State) : Prop := s.regs.p.i = true ∧ s.intNext ≠ some .irq

theorem Masked.of_same {s t : State} (h : Masked s) (hr : t.regs = s.regs) (hi : t.intNext = s.intNext) : Masked t :=
  ⟨by rw [hr]; exact h.1, by rw [hi]; exact h.2⟩

/-- A poll that finds I set chooses no IRQ. -/
theorem pollResult_ne_irq {s : State} (h : s.regs.p.i = true) : pollResult s ≠ some .irq := by
  unfold pollResult
  rw [h, Bool.not_true, Bool.and_false]
  split <;> simp

/-! ## One dot -/

/-- What a dot's work can change but for the mapper's look at the address bus: the PPU and the count of draws. -/
inductive PpuWork (s : State) : State → Prop
  | mk (ppu : Ppu) (draws : Nat) : PpuWork s { s with ppu := ppu, draws := draws }

theorem PpuWork.trans {s t u : State} (h : PpuWork s t) (k : PpuWork t u) : PpuWork s u := by
  cases h
  cases k
  exact .mk _ _

theorem fetch_work (a : PpuAddr) (k : Byte → Ppu → Ppu) (s : State) : PpuWork s (fetch a k s) := .mk _ _

theorem bgFetch_work (s : State) : PpuWork s (bgFetch s) := by
  unfold bgFetch
  dsimp only
  split
  · split
    case h_5 => exact .mk _ _
    all_goals exact fetch_work _ _ s
  split
  · exact fetch_work _ _ s
  · exact .mk _ _

theorem spriteEvalDot_work (s : State) : PpuWork s (spriteEvalDot s) := by
  have overflow {t : State} (ht : PpuWork s t) :
      PpuWork s (if t.ppu.evalOvfDot = some s.ppu.dot then { t with ppu := { t.ppu with spriteOverflow := true } } else t) := by
    split
    · exact ht.trans (.mk _ _)
    · exact ht
  unfold spriteEvalDot
  dsimp only
  split
  · apply overflow
    split
    · exact .mk _ _
    split
    · split <;> exact .mk _ _
    · exact .mk _ _
  · exact .mk _ _

theorem slotFetch_work (i k : Nat) (s : State) : PpuWork s (slotFetch i k s) := by
  unfold slotFetch
  split
  · exact fetch_work _ _ s
  split
  · exact fetch_work _ _ s
  split
  · exact fetch_work _ _ s
  · exact .mk _ _

theorem spriteFetchDot_work (s : State) : PpuWork s (spriteFetchDot s) := by
  unfold spriteFetchDot
  dsimp only
  split
  · exact (slotFetch_work _ _ s).trans (.mk _ _)
  · exact .mk _ _

theorem renderDot_work (s : State) : PpuWork s (renderDot s) := by
  unfold renderDot
  split
  · exact ((((bgFetch_work s).trans (.mk _ _)).trans (spriteEvalDot_work _)).trans (spriteFetchDot_work _)).trans (.mk _ _)
  · exact .mk _ _

theorem PpuWork.intNext {s t : State} (h : PpuWork s t) : t.intNext = s.intNext := by
  cases h
  rfl

theorem ppuObserve_intNext (s : State) : (ppuObserve s).intNext = s.intNext := by
  unfold ppuObserve
  split <;> rfl

theorem ppuDot_intNext (s : State) : (ppuDot s).intNext = s.intNext :=
  (ppuObserve_intNext _).trans (renderDot_work { s with ppu := s.ppu.frameEvents }).intNext

theorem ppuDots_intNext (n : Nat) (s : State) : (ppuDots n s).intNext = s.intNext := by
  induction n generalizing s with
  | zero => rfl
  | succ n ih => exact (ih _).trans (ppuDot_intNext s)

/-! ## Cycles -/

theorem apuCycle_intNext (s : State) : (apuCycle s).intNext = s.intNext := by
  unfold apuCycle sampleCheck dmcReader
  dsimp only
  repeat' split
  all_goals rfl

theorem cycleEnd_intNext (s : State) : (cycleEnd s).intNext = s.intNext :=
  (apuCycle_intNext _).trans (ppuDots_intNext _ s)

/-- A cycle leaves alone what its access does to the mask. -/
theorem cycle_masked {access : State → State} (hm : ∀ s, Masked s → Masked (access s)) {s : State} (h : Masked s) :
    Masked (cycle access s) := by
  have hdots := h.of_same (ppuDots_same s.params.ppuPhase.val s).1 (ppuDots_intNext _ s)
  exact (hm _ hdots).of_same (cycleEnd_same _).1 (cycleEnd_intNext _)

/-- A race-window read polls again, with I as it is (R240, log 11). -/
theorem raceNmi_masked (b : Bool) {s : State} (h : Masked s) : Masked (raceNmi b s) := by
  unfold raceNmi
  dsimp only
  split
  · exact ⟨h.1, pollResult_ne_irq h.1⟩
  · exact h

theorem readStatus_masked {s : State} (h : Masked s) : Masked (readStatus s) := by
  unfold readStatus
  dsimp only
  split
  · split
    · exact raceNmi_masked _ h
    · exact h
  · exact h

theorem ppuRegRead_masked (r : BitVec 3) {s : State} (h : Masked s) : Masked (ppuRegRead r s) := by
  unfold ppuRegRead readOamData readData
  split
  · exact readStatus_masked h
  split
  · split <;> exact h
  split
  · dsimp only
    split
    · exact h
    split <;> exact h
  · exact h

theorem readAccess_masked (a : Word) (s : State) (h : Masked s) : Masked (readAccess a s) := by
  unfold readAccess readPort0 readPort1
  split
  · exact h
  split
  · exact ppuRegRead_masked _ h
  split
  · exact h
  split
  · dsimp only
    split <;> exact h
  split
  · dsimp only
    split <;> exact h
  split <;> exact h

theorem dmcAccess_masked (s : State) (h : Masked s) : Masked (dmcAccess s) := by
  have hr := readAccess_masked s.apu.dmc.address s h
  unfold dmcAccess dmcDone
  dsimp only
  split <;> exact hr

theorem writeAccess_masked (a : Word) (v : Byte) (s : State) (h : Masked s) : Masked (writeAccess a v s) := by
  have hw := routeWrite_effect a v s
  unfold writeAccess
  generalize routeWrite a v s = t at hw ⊢
  cases hw <;> exact h

theorem BusAccess.masked {access : State → State} (ha : BusAccess access) (s : State) (h : Masked s) : Masked (access s) := by
  cases ha with
  | read a => exact readAccess_masked a s h
  | sample => exact dmcAccess_masked s h
  | write a v => exact writeAccess_masked a v s h

/-! ## Instructions -/

theorem Internal.masked {unmasks : Prop} {s t : State} (hi : Internal unmasks s t) (hu : ¬unmasks) (h : Masked s) :
    Masked t := by
  cases hi with
  | regs f hf => exact ⟨hf.resolve_left hu _ h.1, h.2⟩
  | poll => exact ⟨h.1, pollResult_ne_irq h.1⟩
  | draws | dropNmi | takeOam => exact h

theorem Path.masked {unmasks : Prop} {s t : State} (hp : Path unmasks s t) (hu : ¬unmasks) (h : Masked s) : Masked t := by
  induction hp with
  | start => exact h
  | cycle _ ha ih => exact cycle_masked ha.masked ih
  | internal _ hi ih => exact hi.masked hu ih

theorem Ends.intNext_ne_irq {s t : State} (he : Ends s t) (h : Masked s) : t.intNext ≠ some .irq := by
  cases he with
  | mk _ _ _ _ intNext hn =>
    show intNext ≠ some .irq
    rcases hn with rfl | rfl
    · exact h.2
    · simp

/-- Settles O32: but for RTI, I stays set up to the last poll of an instruction that finds it set. -/
theorem maskedIrqIsNotChosen : Obligations.MaskedIrqIsNotChosen := by
  unfold Obligations.MaskedIrqIsNotChosen
  intro i s t hi hn hrti h
  obtain ⟨u, hu, v, hpath, hend⟩ := exec_completes i s
  cases hu.symm.trans h
  have hs : Masked s := ⟨hi, by simp [hn]⟩
  have hread : Path (i = .rti) s (cpuRead s.regs.pc s) := cpuRead_path .start _
  exact hend.intNext_ne_irq (hpath.masked hrti (hread.masked hrti hs))

end Sys2Proof.Machine
end

section
/-!
PROOFS. One law for the pulls of a sequence, `Pulled.pull`, from which PLA, PLP (O8) and RTI (O18) follow, and the pushes of
PHA and PHP.
-/

namespace Sys2Proof.Machine

/-! ## Pushes and pulls (R22, R26, R27, R100 to R103) -/

/-- The model's N and Z of a result are those of `withNZ` (R15). -/
theorem setNZ_eq (v : Byte) (r : Regs) : setNZ v r = { r with p := withNZ v r.p } := by
  unfold setNZ withNZ
  rw [BitVec.msb_eq_getLsbD_last, Bool.beq_eq_decide_eq]

theorem pushReg_law (value : Regs → Byte) {n : Nat} {s t : State} (h : Fetched n s t) :
    (pushReg value t).regs = { s.regs.plus n with sp := s.regs.sp - 1 } ∧ PushedBytes [value t.regs] s (pushReg value t) := by
  have hf := h.dummyPc.poll
  obtain ⟨-, -, -, hsp, -⟩ := hf.index
  obtain ⟨hpushed, -⟩ := (Pushed.nil hf.2 hsp).push (value t.regs) (by simp)
  exact ⟨by rw [pushReg, (push_law _ _).1, hf.1]; rfl, hpushed⟩

/-- `t` has k bytes pulled off the stack of s, nothing of the kept state changed, with registers r but for S. -/
def Pulled (k : Nat) (r : Regs) (s t : State) : Prop :=
  t.kept = s.kept ∧ t.regs = { r with sp := s.regs.sp + BitVec.ofNat 8 k }

theorem Fetched.pulled {n : Nat} {s t : State} (h : Fetched n s t) : Pulled 0 (s.regs.plus n) s t :=
  ⟨h.2, by rw [h.1, BitVec.add_zero]; rfl⟩

/-- One more pull gives the next byte of the stack. -/
theorem Pulled.pull {k : Nat} {r : Regs} {s t : State} (h : Pulled k r s t) :
    Pulled (k + 1) r s (pull t) ∧ (pull t).cpuBus = pulledByte s (k + 1) := by
  obtain ⟨hkept, hregs⟩ := h
  obtain ⟨hregs', hkept', hbus⟩ := pull_law t
  have hsp : t.regs.sp + 1 = s.regs.sp + BitVec.ofNat 8 (k + 1) := by
    rw [hregs, BitVec.ofNat_add, ← BitVec.add_assoc]
    rfl
  refine ⟨⟨hkept'.trans hkept, ?_⟩, ?_⟩
  · rw [hregs', hsp, hregs]
  · rw [hbus, hsp, kept_wramByte hkept, pulledByte]

theorem pullReg_law (f : Byte → Regs → Regs) {n : Nat} {s t : State} (h : Fetched n s t) :
    (pullReg f t).regs = f (pulledByte s 1) { s.regs.plus n with sp := s.regs.sp + 1 } ∧ (pullReg f t).kept = s.kept := by
  obtain ⟨⟨hkept, hregs⟩, hbus⟩ := h.dummyPc.dummyStack.poll.pulled.pull
  obtain ⟨hregs', hkept', -⟩ := mapRegs_law (f (pulledByte s 1)) (pull (poll (dummyStack (dummyPc t))))
  rw [← hbus, hregs] at hregs'
  rw [← hbus, hkept] at hkept'
  unfold pullReg
  exact ⟨hbus ▸ hregs', hkept'⟩

/-- Settles O8: the laws of a push and of a pull after the opcode fetch. -/
theorem stackResults : Obligations.StackResults := by
  unfold Obligations.StackResults
  intro s
  have h := readPc_fetched s
  obtain ⟨-, -, -, -, hp⟩ := h.index
  refine ⟨⟨_, rfl, ?_⟩, ⟨_, rfl, ?_⟩, ⟨_, rfl, ?_⟩, ⟨_, rfl, ?_⟩⟩
  · obtain ⟨hregs, hpushed⟩ := pushReg_law Regs.a h
    exact ⟨hregs, h.index.1 ▸ hpushed⟩
  · obtain ⟨hregs, hpushed⟩ := pushReg_law (fun r => pByte true r.p) h
    rw [pByte_eq, hp] at hpushed
    exact ⟨hregs, hpushed⟩
  · obtain ⟨hregs, hkept⟩ := pullReg_law opLda h
    exact ⟨hkept, hregs.trans (setNZ_eq _ _)⟩
  · obtain ⟨hregs, hkept⟩ := pullReg_law (fun v r => { r with p := flagsOf v }) h
    exact ⟨hkept, hregs⟩

/-! ## RTI (R140, R187) -/

/-- RTI's three pulls: P, then the low and the high byte of PC. -/
theorem returnFromInterrupt_law {n : Nat} {s t : State} (h : Fetched n s t) :
    (returnFromInterrupt t).kept = s.kept ∧
      (returnFromInterrupt t).regs = { s.regs with
        sp := s.regs.sp + 3, pc := w16 (pulledByte s 3) (pulledByte s 2), p := flagsOf (pulledByte s 1) } := by
  obtain ⟨hp1, hbus1⟩ := h.dummyStack.pulled.pull
  unfold returnFromInterrupt
  dsimp only
  generalize pull (dummyStack t) = t1 at hp1 hbus1 ⊢
  rw [hbus1]
  have hflags : Pulled 1 { s.regs.plus n with p := flagsOf (pulledByte s 1) } s
      (t1.mapRegs fun r => { r with p := flagsOf (pulledByte s 1) }) := ⟨hp1.1, by rw [State.mapRegs_regs, hp1.2]⟩
  obtain ⟨hp2, hbus2⟩ := hflags.pull
  generalize pull (t1.mapRegs _) = t2 at hp2 hbus2 ⊢
  have hpoll : Pulled 2 { s.regs.plus n with p := flagsOf (pulledByte s 1) } s (poll t2) := hp2
  obtain ⟨hp3, hbus3⟩ := hpoll.pull
  generalize pull (poll t2) = t3 at hp3 hbus3 ⊢
  rw [hbus2, hbus3, State.jump_regs, jump_kept, hp3.2]
  exact ⟨hp3.1, rfl⟩

/-- Settles O18: RTI's pulls after its first two cycles. -/
theorem rtiResult : Obligations.RtiResult := by
  unfold Obligations.RtiResult
  intro s
  exact ⟨_, rfl, returnFromInterrupt_law (readPc_fetched s).dummyPc⟩

end Sys2Proof.Machine
end

section
/-!
PROOFS. The model's adder as arithmetic on numbers, and how a read-class or immediate instruction completes, in all its modes
at once: O9. The halted CPU: O34.
-/

namespace Sys2Proof.Machine

/-! ## The adder (R104, R105, R107, R108) -/

/-- The registers after an addition or a subtraction with the result n, its carry c. -/
def withResult (n : Int) (c : Bool) (r : Regs) : Regs :=
  { r with
    a := BitVec.ofInt 8 n
    p := { withNZ (BitVec.ofInt 8 n) r.p with c := c, v := decide (n < -128 ∨ 127 < n) } }

/-- The signed sum is outside -128 to 127 exactly when the result's sign differs from that of both operands (R105). -/
theorem add_overflow (a m : Byte) (c : Bool) :
    ((a ^^^ BitVec.ofNat 8 (a.toNat + m.toNat + c.toNat)) &&& (m ^^^ BitVec.ofNat 8 (a.toNat + m.toNat + c.toNat))).msb =
      decide (a.toInt + m.toInt + c.toNat < -128 ∨ 127 < a.toInt + m.toInt + c.toNat) := by
  have ha := a.isLt
  have hm := m.isLt
  have hc : c.toNat ≤ 1 := Bool.toNat_le c
  rw [BitVec.msb_and, BitVec.msb_xor, BitVec.msb_xor]
  simp only [BitVec.msb_eq_decide, BitVec.toNat_ofNat, BitVec.toInt_eq_toNat_cond]
  rw [Bool.eq_iff_iff]
  simp only [Bool.and_eq_true, bne_iff_ne, ne_eq, decide_eq_decide, decide_eq_true_eq]
  omega

theorem ofNat_sum_eq_ofInt (a m : Byte) (n : Nat) :
    BitVec.ofNat 8 (a.toNat + m.toNat + n) = BitVec.ofInt 8 (a.toInt + m.toInt + n) := by
  rw [BitVec.ofNat_add, BitVec.ofNat_add, BitVec.ofInt_add, BitVec.ofInt_add]
  simp

theorem opAdc_eq (m : Byte) (r : Regs) :
    opAdc m r = withResult (r.a.toInt + m.toInt + r.p.c.toNat) (decide (255 < r.a.toNat + m.toNat + r.p.c.toNat)) r := by
  unfold opAdc add
  dsimp only
  rw [setNZ_eq, add_overflow, ofNat_sum_eq_ofInt]
  rfl

/-- A subtraction adds the complement, whose signed value is `-m - 1` and whose unsigned one is `255 - m` (R108). -/
theorem opSbc_eq (m : Byte) (r : Regs) :
    opSbc m r = withResult (r.a.toInt - m.toInt - (1 - r.p.c.toNat)) (decide (m.toNat + 1 ≤ r.a.toNat + r.p.c.toNat)) r := by
  have hm := m.isLt
  have hsum : r.a.toInt + (~~~m).toInt + r.p.c.toNat = r.a.toInt - m.toInt - (1 - r.p.c.toNat) := by
    simp only [BitVec.toInt_eq_toNat_cond, BitVec.toNat_not]
    omega
  have hcarry : 255 < r.a.toNat + (~~~m).toNat + r.p.c.toNat ↔ m.toNat + 1 ≤ r.a.toNat + r.p.c.toNat := by
    rw [BitVec.toNat_not]
    omega
  rw [opSbc, ← opAdc, opAdc_eq, hsum, decide_eq_decide.2 hcarry]

/-! ## The read class -/

theorem reads_of_access {i : Instr} {f : Byte → Regs → Regs} {s : State} (hr : Runs i s) (hm : addressMode i.mode = true)
    (hc : accessOf i.mnemonic = some (.read f)) : ReadsWith f i s := by
  have hl := addressed_law s hm
  have hx := exec_of_access hr hm hc
  have himm : i.mode ≠ .imm := fun h => by rw [h] at hm; cases hm
  have hop : operandByte i s = memByte s (effAddr i s) := if_neg himm
  generalize addressed i (readPc s) = e at hl hx
  unfold ReadsWith
  rw [hx, hop]
  cases e with
  | inl e =>
    obtain ⟨hf, hea⟩ := hl
    obtain ⟨hregs, hkept, hbyte⟩ := readPlain_law f hf
    exact ⟨_, _, rfl, hregs, hkept, hea ▸ hbyte, fun _ => rfl⟩
  | inr e =>
    obtain ⟨hf, hea, hat⟩ := hl
    obtain ⟨hregs, hkept, hbyte⟩ := readIndexed_law f hf hat
    exact ⟨_, _, rfl, hregs, hkept, (hat.1.symm.trans hea) ▸ hbyte, fun _ => rfl⟩

theorem reads_of_immediate {i : Instr} {f : Byte → Regs → Regs} {s : State} (hr : Runs i s) (himm : i.mode = .imm)
    (harm : exec i s = .next (afterFetch i (immediate f (operand1 i)) s)) : ReadsWith f i s := by
  have hlen : i.length = 2 := by rw [Instr.length, himm]; rfl
  obtain ⟨hregs, hkept⟩ := immediate_law f (operand1 i) (readPc_fetched s)
  rw [afterFetch_of_runs _ hr] at harm
  refine ⟨_, operand1 i, harm, ?_, hkept, fun b hb => ?_, fun h => absurd himm h⟩
  · rw [hregs, pastInstr, hlen]
    rfl
  · rw [operandByte, if_pos himm] at hb
    exact Option.some.inj hb

/-- Settles O9: ADC, SBC and USBC are reads with the model's adder, which `opAdc_eq` and `opSbc_eq` give in numbers. -/
theorem addSubtractResults : Obligations.AddSubtractResults := by
  unfold Obligations.AddSubtractResults
  intro v z lo hi s sum difference result
  have hadc : (fun m r => result (sum m r) (decide (255 < r.a.toNat + m.toNat + r.p.c.toNat)) r) = opAdc :=
    (funext₂ opAdc_eq).symm
  have hsbc : (fun m r => result (difference m r) (decide (m.toNat + 1 ≤ r.a.toNat + r.p.c.toNat)) r) = opSbc :=
    (funext₂ opSbc_eq).symm
  rw [hadc, hsbc]
  refine ⟨fun i hi => ?_, fun i hi hr => ?_⟩
  · obtain rfl | haddr := List.mem_cons.1 hi
    · exact reads_of_immediate (.inl rfl) rfl rfl
    · fin_cases haddr <;> exact reads_of_access (.inl rfl) rfl rfl
  · obtain rfl | hrest := List.mem_cons.1 hi
    · exact reads_of_immediate hr rfl rfl
    · fin_cases hrest
      iterate 7
        · exact reads_of_access hr rfl rfl
      · exact reads_of_immediate hr rfl rfl

/-! ## The halted CPU (R38, R149) -/

theorem step_halted {s : State} (hf : s.fatal = none) (hr : s.resetPending = false) (hh : s.halted = true) :
    step s = .next (haltedStep s) := by
  unfold step
  rw [hf, hr, hh]
  rfl

/-- Settles O34: a halted step is one CPU read of PRG ROM. -/
theorem haltedStepResult : Obligations.HaltedStepResult := by
  unfold Obligations.HaltedStepResult
  intro s hf hr hh
  obtain ⟨hregs, hkept⟩ := cpuRead_same 0xFFFF s
  exact ⟨_, step_halted hf hr hh, hregs, hkept, (kept_halted hkept).trans hh, cpuRead_memByte (memByte_rom s _ (by decide)),
    fun hd => (cpuRead_time 0xFFFF hd).1⟩

end Sys2Proof.Machine
end

section
/-!
PROOFS. JMP, absolute and indirect: O14. The look ahead `fetchInstr` gives the instruction whose bytes lie in plain memory at
PC, so a step runs it: O4. The opcode map gives an instruction back from its bytes (`decodeOp_encode`), and each fetch of the
look ahead reads one of them (`CodeAt.byte`), JSR's third byte after its pushes.
-/

namespace Sys2Proof.Machine

/-! ## Jumps (R126, R127) -/

/-- A jump at the end of an instruction leaves nothing of the bytes fetched but its target in PC. -/
theorem Fetched.jump {n : Nat} {s t : State} (h : Fetched n s t) (a : Word) :
    (t.jump a).regs = { s.regs with pc := a } ∧ (t.jump a).kept = s.kept :=
  ⟨by rw [State.jump_regs, h.1, Regs.plus], (jump_kept a t).trans h.2⟩

theorem jumpAbs_law (lo hi : Byte) {n : Nat} {s t : State} (h : Fetched n s t) :
    (jumpAbs lo hi t).regs = { s.regs with pc := w16 hi lo } ∧ (jumpAbs lo hi t).kept = s.kept :=
  h.readPc.poll.dummyPc.jump _

/-- JMP indirect's two pointer reads, the second in the page of the first. -/
theorem jumpIndirect_law (lo hi : Byte) {n : Nat} {s t : State} (h : Fetched n s t) :
    ∃ l m, (jumpIndirect lo hi t).regs = { s.regs with pc := w16 m l } ∧ (jumpIndirect lo hi t).kept = s.kept ∧
      (∀ b, memByte s (w16 hi lo) = some b → l = b) ∧ (∀ b, memByte s (w16 hi (lo + 1)) = some b → m = b) := by
  have h1 := h.readPc.dummyPc
  have h2 := (h1.read (w16 hi lo)).poll
  obtain ⟨hregs, hkept⟩ := (h2.read (w16 hi (lo + 1))).jump _
  exact ⟨_, _, hregs, hkept, h1.reads _, h2.reads _⟩

/-- Settles O14: the laws of the two jumps after the opcode fetch. -/
theorem jumpResults : Obligations.JumpResults := by
  unfold Obligations.JumpResults
  intro lo hi s
  have h := readPc_fetched s
  obtain ⟨l, m, hind⟩ := jumpIndirect_law lo hi h
  exact ⟨⟨_, rfl, jumpAbs_law lo hi h⟩, ⟨_, l, m, rfl, hind⟩⟩

/-! ## The instruction at PC (R48, R65, R67, R80) -/

/-- The opcode map gives an instruction back from its bytes, whatever stands for the operands that it does not have. -/
theorem decodeOp_encode (i : Instr) (b1 b2 : Byte) :
    decodeOp i.opcode ((encode i).getD 1 b1) ((encode i).getD 2 b2) = i := by
  cases i <;> dsimp only [Instr.opcode] <;> rfl

theorem mnemonic_jsr_of_opcode {i : Instr} (h : i.opcode = 0x20) : i.mnemonic = .jsr := by
  rw [← decodeOp_encode i 0 0, h]
  rfl

theorem getD_eq_of_getElem? {l : List Byte} {k : Nat} {c : Byte} (h : ∀ b, l[k]? = some b → c = b) : l.getD k c = c := by
  rw [List.getD_eq_getElem?_getD]
  cases hk : l[k]? with
  | none => rfl
  | some b => exact (h b hk).symm

/-- Bytes that agree with those of an instruction, as far as it has any, decode to it. -/
theorem decodeOp_of_bytes {i : Instr} {b0 b1 b2 : Byte} (h0 : ∀ b, (encode i)[0]? = some b → b0 = b)
    (h1 : ∀ b, (encode i)[1]? = some b → b1 = b) (h2 : ∀ b, (encode i)[2]? = some b → b2 = b) : decodeOp b0 b1 b2 = i := by
  rw [h0 i.opcode rfl, ← getD_eq_of_getElem? h1, ← getD_eq_of_getElem? h2]
  exact decodeOp_encode i b1 b2

/-- The bytes of `i` lie in plain memory from PC on. -/
def CodeAt (i : Instr) (s : State) : Prop :=
  ∀ k b, (encode i)[k]? = some b → memByte s (s.regs.pc + BitVec.ofNat 16 k) = some b

/-- A read at PC after n bytes fetched gives byte n of the instruction. -/
theorem CodeAt.byte {i : Instr} {s : State} (hc : CodeAt i s) {n : Nat} {t : State} (h : Fetched n s t) :
    ∀ b, (encode i)[n]? = some b → (dummyPc t).cpuBus = b := by
  intro b hb
  refine h.reads t.regs.pc b ?_
  rw [h.1]
  exact hc n b hb

theorem readPc_cpuBus (s : State) : (readPc s).cpuBus = (dummyPc s).cpuBus := rfl

/-- Plain memory after pushes is as before, but for the bytes pushed. -/
theorem Pushed.memByte {vs : List Byte} {s t : State} (h : Pushed vs s t) {a : Word}
    (ha : ∀ k, k < vs.length → ¬hitsRam (stackAddr (s.regs.sp - BitVec.ofNat 8 k)) a) : memByte t a = memByte s a := by
  obtain ⟨⟨-, hmiss, hkept⟩, -⟩ := h
  by_cases hram : a.toNat < 0x2000
  · simp only [Machine.memByte, if_pos hram, hmiss a ha]
  · have hk : ({ t with wram := s.wram } : State).kept = s.kept := by
      show ({ t.kept with wram := s.wram } : State) = s.kept
      rw [hkept]
      rfl
    rw [← kept_memByte hk a]
    simp only [Machine.memByte, if_neg hram]

/-- JSR's pushes, between the fetches of its operand bytes (R128). -/
def jsrPushes (s : State) : State := push (loByte s.regs.pc) (push (hiByte s.regs.pc) s)

/-- The third byte is read as it lay in memory before JSR's two pushes, which do not hit it. -/
theorem CodeAt.byte_jsrPushes {i : Instr} {s : State} (hc : CodeAt i s) {t : State} (h : Fetched 2 s t)
    (h0 : ¬hitsRam (stackAddr s.regs.sp) (s.regs.pc + 2)) (h1 : ¬hitsRam (stackAddr (s.regs.sp - 1)) (s.regs.pc + 2)) :
    ∀ b, (encode i)[2]? = some b → (dummyPc (jsrPushes t)).cpuBus = b := by
  intro b hb
  obtain ⟨-, -, -, hsp, -⟩ := h.index
  have hpush := ((Pushed.nil h.2 hsp).push (hiByte t.regs.pc) (by simp)).push (loByte t.regs.pc) (by simp)
  have hmem : memByte (jsrPushes t) (s.regs.pc + 2) = memByte s (s.regs.pc + 2) := by
    refine hpush.memByte fun k hk => ?_
    match k, hk with
    | 0, _ => rwa [BitVec.sub_zero]
    | 1, _ => exact h1
  have hpc : (jsrPushes t).regs.pc = s.regs.pc + 2 := by
    rw [jsrPushes, (push_law _ _).1, (push_law _ _).1, h.1]
    rfl
  rw [dummyPc, hpc]
  exact cpuRead_memByte (hmem.trans (hc 2 b hb))

theorem fetchInstr_of_codeAt {i : Instr} {s : State} (hc : CodeAt i s)
    (hjsr : i.mnemonic = .jsr → ¬hitsRam (stackAddr s.regs.sp) (s.regs.pc + 2) ∧
      ¬hitsRam (stackAddr (s.regs.sp - 1)) (s.regs.pc + 2)) : fetchInstr s = i := by
  have h1 := readPc_fetched s
  have hop := hc.byte (Fetched.refl s)
  unfold fetchInstr
  dsimp only
  rw [readPc_cpuBus, readPc_cpuBus]
  refine decodeOp_of_bytes hop (hc.byte h1) ?_
  by_cases h20 : (dummyPc s).cpuBus = 0x20#8
  · obtain ⟨hs0, hs1⟩ := hjsr (mnemonic_jsr_of_opcode ((hop _ rfl).symm.trans h20))
    rw [if_pos h20]
    exact hc.byte_jsrPushes h1.readPc.dummyStack hs0 hs1
  · rw [if_neg h20]
    exact hc.byte h1.readPc

theorem step_atFetch {s : State} (h : AtFetch s) : step s = exec (fetchInstr s) s := by
  obtain ⟨hf, hr, hh, hn⟩ := h
  unfold step
  rw [hf, hr, hh, hn]
  rfl

/-- Settles O4: the look ahead finds the instruction whose bytes lie at PC. -/
theorem stepRunsDecodedInstruction : Obligations.StepRunsDecodedInstruction := by
  unfold Obligations.StepRunsDecodedInstruction
  intro s i hat hc hjsr
  rw [step_atFetch hat, fetchInstr_of_codeAt hc hjsr]

end Sys2Proof.Machine
end

section
/-!
PROOFS. The decoder and the encoder are inverse: every instruction's opcode is its cell of the opcode map and takes as many
bytes as the instruction has (`decodeOp_encode`, `operandCount_opcode`), and every opcode byte is some instruction's
(`exists_opcode`). O1, O2, and O3, whose words are encodings written as numbers.
-/

namespace Sys2Proof.Machine

/-! ## Encode, then decode (R65, R66, R80) -/

theorem operandCount_opcode (i : Instr) : operandCount i.opcode = i.operands.length := by
  cases i <;> dsimp only [Instr.opcode] <;> rfl

theorem decode_of_enough {op : Byte} {bytes : List Byte} (h : operandCount op ≤ bytes.length) :
    decode (op :: bytes) = .ok (decodeOp op (bytes.getD 0 0) (bytes.getD 1 0), bytes.drop (operandCount op)) :=
  if_neg (Nat.not_lt.mpr h)

theorem decode_encode_append (i : Instr) (rest : List Byte) : decode (encode i ++ rest) = .ok (i, rest) := by
  have hbyte (k : Nat) : ∀ b, (encode i)[k + 1]? = some b → (i.operands ++ rest).getD k 0 = b := by
    intro b hb
    have hk : i.operands[k]? = some b := hb
    rw [List.getD_eq_getElem?_getD, List.getElem?_append_left (List.getElem?_eq_some_iff.1 hk).1, hk]
    rfl
  have hop : decodeOp i.opcode ((i.operands ++ rest).getD 0 0) ((i.operands ++ rest).getD 1 0) = i :=
    decodeOp_of_bytes (fun _ hb => Option.some.inj hb) (hbyte 0) (hbyte 1)
  have hcount := operandCount_opcode i
  show decode (i.opcode :: (i.operands ++ rest)) = _
  rw [decode_of_enough (by simp [hcount]), hop, hcount, List.drop_left]

/-- Settles O1: the operand bytes of an instruction are those its opcode takes, and the opcode map gives it back from them. -/
theorem encodeThenDecode : Obligations.EncodeThenDecode := by
  unfold Obligations.EncodeThenDecode
  exact decode_encode_append

/-! ## Decode, then encode (R66, R80, R82) -/

/-- Every opcode byte is some instruction's (R82). -/
theorem exists_opcode (op : Byte) : ∃ i : Instr, i.opcode = op :=
  ⟨decodeOp op 0 0, by revert op; decide⟩

/-- What the opcode map gives has the opcode it was found under, and as many of the bytes after it as that takes. -/
theorem encode_decodeOp (op b1 b2 : Byte) : encode (decodeOp op b1 b2) = op :: [b1, b2].take (operandCount op) := by
  obtain ⟨i, rfl⟩ := exists_opcode op
  cases i <;> dsimp only [Instr.opcode] <;> rfl

theorem operandCount_le (op : Byte) : operandCount op ≤ 2 := by
  unfold operandCount
  cases (decodeOp op 0 0).mode <;> decide

/-- The bytes the decoder hands to the opcode map are those it drops from the list. -/
theorem take_getD_append_drop {n : Nat} {l : List Byte} (hn : n ≤ 2) (hl : n ≤ l.length) :
    [l.getD 0 0, l.getD 1 0].take n ++ l.drop n = l := by
  match n, l, hn, hl with
  | 0, _, _, _ => rfl
  | 1, _ :: _, _, _ => rfl
  | 2, _ :: _ :: _, _, _ => rfl

theorem eq_encode_append_of_decode {bytes rest : List Byte} {i : Instr} (h : decode bytes = .ok (i, rest)) :
    bytes = encode i ++ rest := by
  cases bytes with
  | nil => cases h
  | cons op bytes =>
    by_cases hl : operandCount op ≤ bytes.length
    · cases (decode_of_enough hl).symm.trans h
      rw [encode_decodeOp, List.cons_append, take_getD_append_drop (operandCount_le op) hl]
    · rw [decode, if_pos (Nat.not_le.1 hl)] at h
      cases h

/-- Settles O2: what decodes is read off the opcode map, whose cells encode to the bytes they are found by. -/
theorem decodeThenEncode : Obligations.DecodeThenEncode := by
  unfold Obligations.DecodeThenEncode
  exact ⟨fun _ _ _ h => eq_encode_append_of_decode h, fun _ _ h => ⟨_, decode_of_enough h⟩⟩

/-! ## Words of the opcode map (R80) -/

/-- A word whose bytes, lowest first, begin with an instruction's encoding reads as that instruction. -/
theorem decodeTableWord_of_encode {nbits w : Nat} {i : Instr} {rest : List Byte}
    (h : [BitVec.ofNat 8 (w % 2 ^ nbits), BitVec.ofNat 8 (w % 2 ^ nbits / 256), BitVec.ofNat 8 (w % 2 ^ nbits / 65536)] =
      encode i ++ rest) : decodeTableWord nbits w = some i := by
  rw [decodeTableWord, h, decode_encode_append]

/-- Settles O3: each word is its instruction's encoding, read as a number, and zeros above. -/
theorem decodesTheseWords : Obligations.DecodesTheseWords := by
  unfold Obligations.DecodesTheseWords
  and_intros
  all_goals exact decodeTableWord_of_encode rfl

end Sys2Proof.Machine
end

section
/-!
PROOFS. How a write-class and a read-modify-write instruction completes, in all its modes at once: the stores (O6), and INC,
DEC and the memory shifts (O13), whose results `modAsl_eq` to `modRor_eq` give as arithmetic on numbers.
-/

namespace Sys2Proof.Machine

/-! ## The write class (R77, R91 to R93, R157) -/

theorem stores_of_access {i : Instr} {value : Regs → Byte} {s : State} (hr : Runs i s) (hm : addressMode i.mode = true)
    (hc : accessOf i.mnemonic = some (.write value)) (hv : ∀ (r : Regs) (n : Nat), value (r.plus n) = value r) :
    StoresWith value i s := by
  have hl := addressed_law s hm
  have hx := exec_of_access hr hm hc
  generalize addressed i (readPc s) = e at hl hx
  unfold StoresWith
  rw [hx, ← hv s.regs i.length]
  cases e with
  | inl e =>
    obtain ⟨hf, hea⟩ := hl
    exact ⟨_, rfl, hea ▸ writePlain_law value hf⟩
  | inr e =>
    obtain ⟨hf, hea, -⟩ := hl
    exact ⟨_, rfl, hea ▸ writeIndexed_law value hf⟩

/-- Settles O6: the four mnemonics are of the write class, and the value they write does not depend on PC. -/
theorem storeResults : Obligations.StoreResults := by
  unfold Obligations.StoreResults
  intro z lo hi s
  refine ⟨fun i hi => ?_, fun i hi => ?_, fun i hi => ?_, fun i hi hr => ?_⟩
  · fin_cases hi <;> exact stores_of_access (.inl rfl) rfl rfl fun _ _ => rfl
  · fin_cases hi <;> exact stores_of_access (.inl rfl) rfl rfl fun _ _ => rfl
  · fin_cases hi <;> exact stores_of_access (.inl rfl) rfl rfl fun _ _ => rfl
  · fin_cases hi <;> exact stores_of_access hr rfl rfl fun _ _ => rfl

/-! ## The read-modify-write class (R78) -/

theorem modifies_of_access {i : Instr} {g : Bool → Byte → Byte} {f : Byte → Byte → Regs → Regs} {s : State} (hr : Runs i s)
    (hm : addressMode i.mode = true) (hc : accessOf i.mnemonic = some (.modify g f)) : ModifiesWith g f i s := by
  have hl := addressed_law s hm
  have hx := exec_of_access hr hm hc
  generalize addressed i (readPc s) = e at hl hx
  unfold ModifiesWith
  rw [hx]
  cases e with
  | inl e =>
    obtain ⟨hf, hea⟩ := hl
    obtain ⟨m, hbyte, hregs, hbus, hstored⟩ := modifyAt_law g f e.ea hf
    rw [← hea]
    exact ⟨_, m, rfl, hregs, hbus, hbyte, hstored⟩
  | inr e =>
    obtain ⟨hf, hea, -⟩ := hl
    obtain ⟨m, hbyte, hregs, hbus, hstored⟩ := modifyAt_law g f e.ea (hf.read e.raw)
    rw [← hea]
    exact ⟨_, m, rfl, hregs, hbus, hbyte, hstored⟩

/-! ## Results as numbers (R122 to R125) -/

theorem modAsl_eq : modAsl = fun _ m => BitVec.ofNat 8 (2 * m.toNat) := by
  funext _ m
  apply BitVec.eq_of_toNat_eq
  rw [modAsl, BitVec.toNat_shiftLeft, BitVec.toNat_ofNat, Nat.shiftLeft_eq, Nat.mul_comm]

theorem modLsr_eq : modLsr = fun _ m => BitVec.ofNat 8 (m.toNat / 2) := by
  funext _ m
  apply BitVec.eq_of_toNat_eq
  have := m.isLt
  rw [modLsr, BitVec.toNat_ushiftRight, BitVec.toNat_ofNat, Nat.shiftRight_eq_div_pow]
  omega

theorem modRol_eq : modRol = fun c m => BitVec.ofNat 8 (2 * m.toNat + c.toNat) := by
  funext c m
  revert c m
  decide

theorem modRor_eq : modRor = fun c m => BitVec.ofNat 8 (128 * c.toNat + m.toNat / 2) := by
  funext c m
  revert c m
  decide

/-- The shifts' flags: N and Z of the result, and C the bit shifted out. -/
theorem opShiftLeft_eq : opShiftLeft = fun m w r => { r with p := { withNZ w r.p with c := m.getLsbD 7 } } := by
  funext m w r
  rw [opShiftLeft, setNZ_eq]
  rfl

theorem opShiftRight_eq : opShiftRight = fun m w r => { r with p := { withNZ w r.p with c := m.getLsbD 0 } } := by
  funext m w r
  rw [opShiftRight, setNZ_eq]
  rfl

theorem opIncDec_eq : opIncDec = fun _ w r => { r with p := withNZ w r.p } := by
  funext m w r
  exact setNZ_eq w r

/-- Settles O13: the six mnemonics are of the read-modify-write class, with results and flags as in `modAsl_eq` to
`opIncDec_eq`. -/
theorem memoryModifyResults : Obligations.MemoryModifyResults := by
  unfold Obligations.MemoryModifyResults
  intro z lo hi s flagsOnly carryFrom
  have hflags : flagsOnly = opIncDec := opIncDec_eq.symm
  have hleft : carryFrom 7 = opShiftLeft := opShiftLeft_eq.symm
  have hright : carryFrom 0 = opShiftRight := opShiftRight_eq.symm
  rw [hflags, hleft, hright, ← modAsl_eq, ← modLsr_eq, ← modRol_eq, ← modRor_eq]
  refine ⟨fun i hi => ?_, fun i hi => ?_, fun i hi => ?_, fun i hi => ?_, fun i hi => ?_, fun i hi => ?_⟩
  all_goals fin_cases hi <;> exact modifies_of_access (.inl rfl) rfl rfl

end Sys2Proof.Machine
end

section
/-!
PROOFS. How many cycles an instruction takes, and that one that runs to its end sets no fatal condition, said once for all
256: `exec_takes`. Each operation adds its bus cycles to those before it (`Passes`). A write to a register may request a DMA,
but no read follows it in the same instruction (`Takes`). O27 and, with what strict mode does, O26.
-/

namespace Sys2Proof.Machine

/-! ## Cycles (R16, R203, R304) -/

/-- From s to t no fatal condition is set, and n cycles pass if no DMA is due in s. -/
structure Takes (n : Nat) (s t : State) : Prop where
  fatal : t.fatal = s.fatal
  cycles : NoDma s → t.cpuCycle = s.cpuCycle + n

/-- As `Takes`, and nothing on the way requests a DMA. -/
structure Passes (n : Nat) (s t : State) : Prop extends Takes n s t where
  noDma : NoDma s → NoDma t

theorem passes_refl (s : State) : Passes 0 s s := ⟨⟨rfl, fun _ => rfl⟩, id⟩

theorem Takes.write {n : Nat} {s t : State} (h : Takes n s t) (a : Word) (v : Byte) : Takes (n + 1) s (cpuWrite a v t) where
  fatal := (cpuWrite_stored a v t).fatal.trans h.fatal
  cycles hd := by rw [cpuWrite_cpuCycle, h.cycles hd, Nat.add_assoc]

theorem Takes.instant {n : Nat} {s t u : State} (h : Takes n s t) (hf : u.fatal = t.fatal) (hc : u.cpuCycle = t.cpuCycle) :
    Takes n s u := ⟨hf.trans h.fatal, fun hd => hc.trans (h.cycles hd)⟩

theorem Takes.mapRegs {n : Nat} {s t : State} (h : Takes n s t) (f : Regs → Regs) : Takes n s (t.mapRegs f) :=
  h.instant rfl rfl

theorem Takes.halt {n : Nat} {s t : State} (h : Takes n s t) : Takes n s { t with halted := true } := h.instant rfl rfl

theorem Takes.poll {n : Nat} {s t : State} (h : Takes n s t) : Takes n s (poll t) := h.instant rfl rfl

section Passes

variable {n : Nat} {s t : State} (h : Passes n s t)
include h

/-! ## The named operations -/

theorem Passes.instant {u : State} (hf : u.fatal = t.fatal) (ht : TimeSame t u) : Passes n s u :=
  ⟨h.toTakes.instant hf ht.1, fun hd => ht.noDma (h.noDma hd)⟩

theorem Passes.mapRegs (f : Regs → Regs) : Passes n s (t.mapRegs f) := h.instant rfl ⟨rfl, rfl, rfl, rfl⟩

theorem Passes.jump (a : Word) : Passes n s (t.jump a) := h.instant rfl ⟨rfl, rfl, rfl, rfl⟩

theorem Passes.setSp (v : Byte) : Passes n s (t.setSp v) := h.instant rfl ⟨rfl, rfl, rfl, rfl⟩

theorem Passes.poll : Passes n s (poll t) := h.instant rfl ⟨rfl, rfl, rfl, rfl⟩

theorem Passes.draws (k : Nat) : Passes n s { t with draws := k } := h.instant rfl ⟨rfl, rfl, rfl, rfl⟩

theorem Passes.read (a : Word) : Passes (n + 1) s (cpuRead a t) where
  fatal := (kept_fatal (cpuRead_same a t).2).trans h.fatal
  cycles hd := by rw [(cpuRead_time a (h.noDma hd)).1, h.cycles hd, Nat.add_assoc]
  noDma hd := (cpuRead_time a (h.noDma hd)).2

theorem Passes.readPc : Passes (n + 1) s (readPc t) := (h.read _).jump _

theorem Passes.dummyPc : Passes (n + 1) s (dummyPc t) := h.read _

theorem Passes.dummyStack : Passes (n + 1) s (dummyStack t) := h.read _

/-- A push writes to work RAM, which requests no DMA. -/
theorem Passes.push (v : Byte) : Passes (n + 1) s (push v t) :=
  Passes.setSp ⟨h.toTakes.write _ v, fun hd => cpuWrite_ram_noDma v (stack_ram _) (h.noDma hd)⟩ _

theorem Passes.pull : Passes (n + 1) s (pull t) := (h.setSp _).read _

theorem Passes.jumpThrough (a a' : Word) : Passes (n + 2) s (jumpThrough a a' t) := ((h.read a).read a').jump _

theorem Passes.chooseVector (nmi : Bool) : Passes n s (chooseVector nmi t).2 := by
  unfold Machine.chooseVector
  split
  · exact h.instant rfl ⟨rfl, rfl, rfl, rfl⟩
  · exact h

theorem Passes.enterInterrupt (b nmi : Bool) : Passes (n + 5) s (enterInterrupt b nmi t) := by
  have hv := ((h.push (hiByte t.regs.pc)).push (loByte (Machine.push (hiByte t.regs.pc) t).regs.pc)).chooseVector nmi
  unfold Machine.enterInterrupt
  dsimp only
  generalize Machine.chooseVector nmi _ = c at hv ⊢
  have hj := ((hv.push (pByte b c.2.regs.p)).mapRegs opSei).jumpThrough c.1 (c.1 + 1)
  generalize Machine.jumpThrough c.1 (c.1 + 1) _ = u at hj ⊢
  exact hj.instant rfl ⟨rfl, rfl, rfl, rfl⟩

theorem Passes.pullReg (f : Byte → Regs → Regs) : Takes (n + 3) s (pullReg f t) :=
  (h.dummyPc.dummyStack.poll.pull.mapRegs _).toTakes

/-! ## The access classes (R68, R69, R76 to R78, R167) -/

theorem Passes.implied (f : Regs → Regs) : Takes (n + 1) s (implied f t) := (h.poll.dummyPc.mapRegs f).toTakes

theorem Passes.immediate (f : Byte → Regs → Regs) (m : Byte) : Takes (n + 1) s (immediate f m t) :=
  (h.poll.readPc.mapRegs _).toTakes

theorem Passes.immediateDraw (draw : Nat → Byte) (f : Byte → Byte → Regs → Regs) (m : Byte) :
    Takes (n + 1) s (immediateDraw draw f m t) := (h.immediate (f (draw t.draws)) m).instant rfl rfl

theorem Passes.modifyAt (g : Bool → Byte → Byte) (f : Byte → Byte → Regs → Regs) (ea : Word) :
    Takes (n + 3) s (modifyAt g f ea t) :=
  (((h.read ea).toTakes.write ea _).poll.write ea _).mapRegs _

omit h in
theorem Passes.readIndexed (f : Byte → Regs → Regs) {e : Indexed} (h : Passes n s e.st) :
    Takes (n + (1 + e.crossed.toNat)) s (readIndexed f e) := by
  unfold Machine.readIndexed
  cases e.crossed with
  | true => exact (((h.read e.raw).poll.read e.ea).mapRegs _).toTakes
  | false => exact ((h.poll.read e.raw).mapRegs _).toTakes

omit h in
theorem Passes.storeHigh (due : Nat) (value : Regs → Byte) {e : Indexed} (h : Passes n s e.st) :
    Takes (n + 2) s (storeHigh due value e) :=
  ((h.read e.raw).draws _).poll.toTakes.write _ _

end Passes

/-! ## Instructions with an address -/

/-- The cycles of an addressing mode between the opcode fetch and the access (R70 to R75). -/
def addressCycles : Mode → Nat
  | .zp => 1
  | .zpx | .zpy | .abs | .abx | .aby => 2
  | .izy => 3
  | .izx => 4
  | .imp | .acc | .imm | .ind | .rel | .jam => 0

/-- The cycles of an access. In an indexed mode a read is made again on a page cross, and a write or a modification comes
after a read of the uncorrected address (R76 to R78). -/
def Access.cycles (indexed crossed : Bool) : Access → Nat
  | .read _ => 1 + (indexed && crossed).toNat
  | .write _ => 1 + indexed.toNat
  | .modify _ _ => 3 + indexed.toNat

theorem Passes.addressed (i : Instr) {n : Nat} {s t : State} (h : Passes n s t) :
    Passes (n + addressCycles i.mode) s (stateOf (addressed i t)) := by
  unfold Machine.addressed
  cases i.mode
  case zp => exact h.readPc
  case zpx | zpy => exact h.readPc.read _
  case abs | abx | aby => exact h.readPc.readPc
  case izx => exact ((h.readPc.read _).read _).read _
  case izy => exact (h.readPc.read _).read _
  case imp | acc | imm | ind | rel | jam => exact h

theorem Access.run_takes (c : Access) {i : Instr} {e : Plain ⊕ Indexed} {n : Nat} {s : State} (hl : Located i s e)
    (h : Passes n s (stateOf e)) : Takes (n + c.cycles e.isRight (pageCrossed i s)) s (c.run e) := by
  cases e with
  | inl e =>
    cases c with
    | read f => exact ((h.poll.read e.ea).mapRegs _).toTakes
    | write value => exact h.poll.toTakes.write e.ea _
    | modify g f => exact h.modifyAt g f e.ea
  | inr e =>
    cases c with
    | read f =>
      obtain ⟨-, -, -, -, hcrossed, -⟩ := hl
      have hread := Passes.readIndexed f h
      rw [hcrossed] at hread
      exact hread
    | write value => exact (h.read e.raw).poll.toTakes.write e.ea _
    | modify g f => exact (h.read e.raw).modifyAt g f e.ea

/-- The table's count of an instruction with an address is the sum of its opcode fetch, its mode and its access, row by row;
`hm` and `hc` rule the other rows out (R79). -/
theorem cyclesFor_of_access {i : Instr} {c : Access} (hm : addressMode i.mode = true) (hc : accessOf i.mnemonic = some c)
    (s t : State) : cyclesFor i s = 1 + addressCycles i.mode + c.cycles (addressed i t).isRight (pageCrossed i s) := by
  unfold cyclesFor
  generalize pageCrossed i s = crossed
  cases crossed <;> cases i <;> cases hm <;> cases hc <;> rfl

/-! ## Branches (R130) -/

theorem eq_w16_iff (hi : Byte) (a : Word) : w16 hi (loByte a) = a ↔ a.toNat / 256 = hi.toNat := by
  have := hi.isLt
  rw [BitVec.toNat_eq, w16_toNat, loByte_toNat]
  omega

/-- A branch, its opcode fetch included: two cycles, one more if taken, and another if its target is on another page. -/
theorem branch_takes (taken : Flags → Bool) (off : Byte) (s : State) :
    Takes (2 + if taken s.regs.p then
        (if (s.regs.pc + 2 + BitVec.ofInt 16 off.toInt).toNat / 256 = (s.regs.pc + 2).toNat / 256 then 1 else 2)
      else 0) s (branch taken off (readPc s)) := by
  have h : Passes 2 s (readPc (poll (readPc s))) := (passes_refl s).readPc.poll.readPc
  have hf : Fetched 2 s (readPc (poll (readPc s))) := (readPc_fetched s).poll.readPc
  have hoff : sext16 off = BitVec.ofInt 16 off.toInt := by revert off; decide
  unfold branch
  dsimp only
  generalize readPc (poll (readPc s)) = t at h hf ⊢
  have hpc : t.regs.pc = s.regs.pc + 2 := by rw [hf.1]; rfl
  obtain ⟨-, -, -, -, hp⟩ := hf.index
  rw [hpc, hp, hoff]
  generalize s.regs.pc + 2 = next
  generalize next + BitVec.ofInt 16 off.toInt = target
  have hpage : w16 (hiByte next) (loByte target) = target ↔ target.toNat / 256 = next.toNat / 256 := by
    rw [eq_w16_iff, hiByte_toNat]
  cases taken s.regs.p with
  | false => exact h.toTakes
  | true =>
    rw [if_pos rfl, if_pos rfl]
    by_cases hsame : target.toNat / 256 = next.toNat / 256
    · rw [if_pos hsame, if_pos (hpage.2 hsame)]
      exact (h.dummyPc.jump _).toTakes
    · rw [if_neg hsame, if_neg (mt hpage.1 hsame)]
      exact ((h.dummyPc.poll.read _).jump _).toTakes

/-- An instruction that runs to its end takes the cycles of the table, with the extras of a page cross and of a branch (R79,
R130), and sets no fatal condition. -/
theorem exec_takes {i : Instr} {s : State} (hr : Runs i s) : ∃ t, exec i s = .next t ∧ Takes (cyclesFor i s) s t := by
  have h := (passes_refl s).readPc
  by_cases hclass : addressMode i.mode = true ∧ ∃ c, accessOf i.mnemonic = some c
  · obtain ⟨hm, c, hc⟩ := hclass
    refine ⟨_, exec_of_access hr hm hc, ?_⟩
    rw [cyclesFor_of_access hm hc s (readPc s)]
    exact c.run_takes (addressed_law s hm) (h.addressed i)
  have ends {k : State → State} (harm : exec i s = .next (afterFetch i k s)) (hk : Takes (cyclesFor i s) s (k (readPc s))) :
      ∃ t, exec i s = .next t ∧ Takes (cyclesFor i s) s t :=
    ⟨_, harm.trans (congrArg _ (afterFetch_of_runs k hr)), hk⟩
  cases i
  case clc | sec | cli | sei | clv | cld | sed | nop | tax | tay | txa | tya | tsx | txs | inx | iny | dex | dey
      | aslAcc | lsrAcc | rolAcc | rorAcc | nop1A | nop3A | nop5A | nop7A | nopDA | nopFA =>
    exact ends (k := implied _) rfl (h.implied _)
  case ldaImm | ldxImm | ldyImm | adcImm | sbcImm | usbcImm | andImm | oraImm | eorImm | cmpImm | cpxImm | cpyImm
      | ancImm0B | ancImm2B | alrImm | arrImm | sbxImm | nopImm80 | nopImm82 | nopImm89 | nopImmC2 | nopImmE2 =>
    exact ends (k := immediate _ _) rfl (h.immediate _ _)
  case aneImm | lxaImm => exact ends (k := immediateDraw _ _ _) rfl (h.immediateDraw _ _ _)
  case bpl | bmi | bvc | bvs | bcc | bcs | bne | beq => exact ends (k := branch _ _) rfl (branch_takes _ _ s)
  case pha | php => exact ends (k := pushReg _) rfl (h.dummyPc.poll.push _).toTakes
  case pla | plp => exact ends (k := pullReg _) rfl (h.pullReg _)
  case jmpAbs => exact ends (k := jumpAbs _ _) rfl (h.readPc.poll.dummyPc.jump _).toTakes
  case jmpInd => exact ends (k := jumpIndirect _ _) rfl ((h.readPc.dummyPc.read _).poll.read _ |>.jump _).toTakes
  case jsr =>
    exact ends (k := jumpSubroutine _ _) rfl ((((h.readPc.dummyStack.push _).push _).poll.dummyPc).jump _).toTakes
  case rts => exact ends (k := returnSubroutine) rfl ((h.dummyPc.dummyStack.pull.pull.poll.read _).jump _).toTakes
  case brk => exact ends (k := breakSequence) rfl (h.readPc.enterInterrupt _ _).toTakes
  case rti =>
    exact ends (k := fun t => returnFromInterrupt (dummyPc t)) rfl
      ((h.dummyPc.dummyStack.pull.mapRegs _).pull.poll.pull.jump _).toTakes
  case shaAby | shxAby | shyAbx =>
    exact ends (k := fun t => storeHigh _ _ (absIndexed _ _ _ t)) rfl (Passes.storeHigh _ _ h.readPc.readPc)
  case shaIzy =>
    exact ends (k := fun t => storeHigh _ _ (izy _ t)) rfl (Passes.storeHigh _ _ ((h.readPc.read _).read _))
  case tasAby lo hi =>
    have hstore : Takes 5 s (storeHigh (s.cpuCycle + 4) (fun r => r.a &&& r.x) (absIndexed Regs.y lo hi (readPc s))) :=
      Passes.storeHigh _ _ h.readPc.readPc
    exact ends (k := fun t => (storeHigh _ _ (absIndexed _ _ _ t)).mapRegs _) rfl (hstore.mapRegs _)
  case jam02 | jam12 | jam22 | jam32 | jam42 | jam52 | jam62 | jam72 | jam92 | jamB2 | jamD2 | jamF2 =>
    exact ends (k := fun t => { t with halted := true }) rfl h.toTakes.halt
  all_goals exact absurd ⟨rfl, _, rfl⟩ hclass

/-- Settles O27: with no DMA due, the cycles of `exec_takes`. -/
theorem instructionCycles : Obligations.InstructionCycles := by
  unfold Obligations.InstructionCycles
  intro i s t hd hr hx
  obtain ⟨u, hu, htakes⟩ := exec_takes hr
  cases hu.symm.trans hx
  exact htakes.cycles hd

/-! ## Strict mode (R83, R173, R174) -/

/-- The arm of an unofficial opcode is the strict-mode check. -/
theorem exec_unofficial {i : Instr} (hi : i.official = false) (s : State) :
    ∃ k, exec i s = .next (unofficial i.opcode k s) := by
  cases i <;> cases hi <;> exact ⟨_, rfl⟩

theorem exec_strict {i : Instr} {s : State} (hi : i.official = false) (hs : s.params.strictOpcodes = true) :
    exec i s = .next { readPc s with fatal := some (.unimplementedOpcode s.regs.pc i.opcode) } := by
  obtain ⟨k, hk⟩ := exec_unofficial hi s
  rw [hk, unofficial, if_pos hs]

theorem step_fatal {s : State} {k : FatalKind} (h : s.fatal = some k) : step s = .fault (.fatal k) := by
  rw [step, h]

/-- Settles O26: an unofficial opcode in strict mode ends after its fetch, and outside it every instruction runs to its end,
for which `exec_takes` speaks. -/
theorem strictModeIsFatal : Obligations.StrictModeIsFatal := by
  unfold Obligations.StrictModeIsFatal
  refine ⟨fun i s hi hs => ?_, fun i s t hs hx => ?_⟩
  · have hx := exec_strict hi hs
    obtain ⟨hregs, hkept⟩ := readPc_fetched s
    have hbus : ∀ b, memByte s s.regs.pc = some b → (readPc s).cpuBus = b :=
      fun b hb => (readPc_cpuBus s).trans (cpuRead_memByte hb)
    have hcycles : NoDma s → (readPc s).cpuCycle = s.cpuCycle + 1 := (passes_refl s).readPc.cycles
    generalize readPc s = u at hx hregs hkept hbus hcycles
    refine ⟨_, hx, rfl, hregs, ?_, fun hmem => ?_, hcycles, step_fatal rfl⟩
    · rw [← hkept]
      rfl
    · obtain ⟨b, hb⟩ := Option.ne_none_iff_exists'.1 hmem
      rw [hb]
      exact hbus b hb
  · obtain ⟨u, hu, htakes⟩ := exec_takes (i := i) (.inr hs)
    cases hu.symm.trans hx
    exact htakes.fatal

end Sys2Proof.Machine
end

section
/-!
PROOFS. The loads in all their modes at once: LDA, LDX, LDY and LAX (O5) are reads whose register computations `opLda_eq` to
`opLax_eq` give with the N and Z of the statements.
-/

namespace Sys2Proof.Machine

/-! ## The loaded registers (R15, R88 to R90, R158) -/

theorem opLda_eq : opLda = fun m r => { r with a := m, p := withNZ m r.p } :=
  funext₂ fun m r => setNZ_eq m { r with a := m }

theorem opLdx_eq : opLdx = fun m r => { r with x := m, p := withNZ m r.p } :=
  funext₂ fun m r => setNZ_eq m { r with x := m }

theorem opLdy_eq : opLdy = fun m r => { r with y := m, p := withNZ m r.p } :=
  funext₂ fun m r => setNZ_eq m { r with y := m }

theorem opLax_eq : opLax = fun m r => { r with a := m, x := m, p := withNZ m r.p } :=
  funext₂ fun m r => setNZ_eq m { r with a := m, x := m }

/-- Settles O5: each load is its immediate form, which LAX has not, and its forms with an address, which are of the read
class. -/
theorem loadResults : Obligations.LoadResults := by
  unfold Obligations.LoadResults
  intro v z lo hi s
  rw [← opLda_eq, ← opLdx_eq, ← opLdy_eq, ← opLax_eq]
  refine ⟨fun i hmem => ?lda, fun i hmem => ?ldx, fun i hmem => ?ldy, fun i hmem hr => ?lax⟩
  case lax => fin_cases hmem <;> exact reads_of_access hr rfl rfl
  case lda | ldx | ldy =>
    obtain rfl | haddr := List.mem_cons.1 hmem
    · exact reads_of_immediate (.inl rfl) rfl rfl
    · fin_cases haddr <;> exact reads_of_access (.inl rfl) rfl rfl

end Sys2Proof.Machine
end

section
/-!
PROOFS. How an implied or accumulator instruction completes, and the six transfers (O7), whose register computations
`opTax_eq` to `opTxs_eq` give with the N and Z of the statement.
-/

namespace Sys2Proof.Machine

/-! ## The implied class (R68) -/

/-- An instruction of one byte whose arm of `exec` goes on with `implied f` after its opcode fetch completes with `f` of the
registers. -/
theorem implied_of_arm {i : Instr} {f : Regs → Regs} {s : State} (hr : Runs i s) (hlen : i.length = 1)
    (harm : exec i s = .next (afterFetch i (implied f) s)) : ImpliedWith f i s := by
  obtain ⟨hregs, hkept⟩ := implied_law f (readPc_fetched s)
  rw [afterFetch_of_runs _ hr] at harm
  refine ⟨_, harm, ?_, hkept⟩
  rw [hregs, pastInstr, hlen]
  rfl

/-! ## The registers after a transfer (R15, R94 to R99) -/

theorem opTax_eq : opTax = fun r => { r with x := r.a, p := withNZ r.a r.p } :=
  funext fun r => setNZ_eq r.a { r with x := r.a }

theorem opTay_eq : opTay = fun r => { r with y := r.a, p := withNZ r.a r.p } :=
  funext fun r => setNZ_eq r.a { r with y := r.a }

theorem opTxa_eq : opTxa = fun r => { r with a := r.x, p := withNZ r.x r.p } :=
  funext fun r => setNZ_eq r.x { r with a := r.x }

theorem opTya_eq : opTya = fun r => { r with a := r.y, p := withNZ r.y r.p } :=
  funext fun r => setNZ_eq r.y { r with a := r.y }

theorem opTsx_eq : opTsx = fun r => { r with x := r.sp, p := withNZ r.sp r.p } :=
  funext fun r => setNZ_eq r.sp { r with x := r.sp }

/-- TXS has no N and Z to set. -/
theorem opTxs_eq : opTxs = fun r => { r with sp := r.x } := rfl

/-- Settles O7: each transfer is an official implied instruction, with its register computation. -/
theorem transferResults : Obligations.TransferResults := by
  unfold Obligations.TransferResults
  intro s
  rw [← opTax_eq, ← opTay_eq, ← opTxa_eq, ← opTya_eq, ← opTsx_eq, ← opTxs_eq]
  refine ⟨?tax, ?tay, ?txa, ?tya, ?tsx, ?txs⟩
  case tax | tay | txa | tya | tsx | txs => exact implied_of_arm (.inl rfl) rfl rfl

end Sys2Proof.Machine
end

section
/-!
PROOFS. AND, ORA, EOR and BIT (O10) and the compares (O11) in all their modes at once: each is a read whose register
computation `opAnd_eq` to `opCpy_eq` give with the flags of the statements.
-/

namespace Sys2Proof.Machine

/-! ## Logic (R15, R109 to R112) -/

theorem opAnd_eq : opAnd = fun m r => { r with a := r.a &&& m, p := withNZ (r.a &&& m) r.p } :=
  funext₂ fun m r => setNZ_eq (r.a &&& m) { r with a := r.a &&& m }

theorem opOra_eq : opOra = fun m r => { r with a := r.a ||| m, p := withNZ (r.a ||| m) r.p } :=
  funext₂ fun m r => setNZ_eq (r.a ||| m) { r with a := r.a ||| m }

theorem opEor_eq : opEor = fun m r => { r with a := r.a ^^^ m, p := withNZ (r.a ^^^ m) r.p } :=
  funext₂ fun m r => setNZ_eq (r.a ^^^ m) { r with a := r.a ^^^ m }

/-- BIT takes N and V from the operand, and only Z from the conjunction (R112). -/
theorem opBit_eq :
    opBit = fun m r =>
      { r with p := { r.p with z := decide (r.a &&& m = 0), n := m.getLsbD 7, v := m.getLsbD 6 } } := by
  funext m r
  rw [opBit, Bool.beq_eq_decide_eq]

/-- Settles O10: AND, ORA and EOR are each an immediate form and forms with an address, BIT has forms with an address
only, and all of these are of the read class. -/
theorem logicResults : Obligations.LogicResults := by
  unfold Obligations.LogicResults
  intro v z lo hi s
  rw [← opAnd_eq, ← opOra_eq, ← opEor_eq, ← opBit_eq]
  refine ⟨fun i hmem => ?and, fun i hmem => ?ora, fun i hmem => ?eor, fun i hmem => ?bit⟩
  case bit => fin_cases hmem <;> exact reads_of_access (.inl rfl) rfl rfl
  case and | ora | eor =>
    obtain rfl | haddr := List.mem_cons.1 hmem
    · exact reads_of_immediate (.inl rfl) rfl rfl
    · fin_cases haddr <;> exact reads_of_access (.inl rfl) rfl rfl

/-! ## Compares (R106, R113 to R115) -/

/-- A comparison sets N and Z from the difference, and C if the register is not below the operand (R106). -/
theorem compareWith_eq (reg m : Byte) (r : Regs) :
    compareWith reg m r = { r with p := { withNZ (reg - m) r.p with c := decide (m.toNat ≤ reg.toNat) } } := by
  rw [compareWith, setNZ_eq]
  rfl

theorem opCmp_eq :
    opCmp = fun m r => { r with p := { withNZ (r.a - m) r.p with c := decide (m.toNat ≤ r.a.toNat) } } :=
  funext₂ fun m r => compareWith_eq r.a m r

theorem opCpx_eq :
    opCpx = fun m r => { r with p := { withNZ (r.x - m) r.p with c := decide (m.toNat ≤ r.x.toNat) } } :=
  funext₂ fun m r => compareWith_eq r.x m r

theorem opCpy_eq :
    opCpy = fun m r => { r with p := { withNZ (r.y - m) r.p with c := decide (m.toNat ≤ r.y.toNat) } } :=
  funext₂ fun m r => compareWith_eq r.y m r

/-- Settles O11: each compare is its immediate form and its forms with an address, which are of the read class. -/
theorem compareResults : Obligations.CompareResults := by
  unfold Obligations.CompareResults
  intro v z lo hi s
  dsimp only
  rw [← opCmp_eq, ← opCpx_eq, ← opCpy_eq]
  refine ⟨fun i hmem => ?cmp, fun i hmem => ?cpx, fun i hmem => ?cpy⟩
  case cmp | cpx | cpy =>
    obtain rfl | haddr := List.mem_cons.1 hmem
    · exact reads_of_immediate (.inl rfl) rfl rfl
    · fin_cases haddr <;> exact reads_of_access (.inl rfl) rfl rfl

end Sys2Proof.Machine
end

section
/-!
PROOFS. INX, INY, DEX, DEY and the accumulator shifts (O12): implied instructions like the transfers, whose register
computations `opInx_eq` to `opAccRor_eq` give with the flags of the statement. A shift of A takes its result as a number from
`modAsl_eq` to `modRor_eq`, like the shift of a byte of memory.
-/

namespace Sys2Proof.Machine

/-! ## Register steps (R15, R118 to R121) -/

theorem opInx_eq : opInx = fun r => { r with x := r.x + 1, p := withNZ (r.x + 1) r.p } :=
  funext fun r => setNZ_eq (r.x + 1) { r with x := r.x + 1 }

theorem opIny_eq : opIny = fun r => { r with y := r.y + 1, p := withNZ (r.y + 1) r.p } :=
  funext fun r => setNZ_eq (r.y + 1) { r with y := r.y + 1 }

theorem opDex_eq : opDex = fun r => { r with x := r.x - 1, p := withNZ (r.x - 1) r.p } :=
  funext fun r => setNZ_eq (r.x - 1) { r with x := r.x - 1 }

theorem opDey_eq : opDey = fun r => { r with y := r.y - 1, p := withNZ (r.y - 1) r.p } :=
  funext fun r => setNZ_eq (r.y - 1) { r with y := r.y - 1 }

/-! ## Shifts and rotates of the accumulator (R15, R122 to R125) -/

/-- ASL and ROL of A: C gets the old bit 7, whatever the result is. -/
theorem opAcc_opShiftLeft (f : Bool → Byte → Byte) :
    opAcc f opShiftLeft = fun r =>
      { r with a := f r.p.c r.a, p := { withNZ (f r.p.c r.a) r.p with c := r.a.getLsbD 7 } } := by
  funext r
  rw [opAcc, opShiftLeft_eq]

/-- LSR and ROR of A: C gets the old bit 0, whatever the result is. -/
theorem opAcc_opShiftRight (f : Bool → Byte → Byte) :
    opAcc f opShiftRight = fun r =>
      { r with a := f r.p.c r.a, p := { withNZ (f r.p.c r.a) r.p with c := r.a.getLsbD 0 } } := by
  funext r
  rw [opAcc, opShiftRight_eq]

theorem opAccAsl_eq :
    opAcc modAsl opShiftLeft = fun r =>
      let v := BitVec.ofNat 8 (2 * r.a.toNat)
      { r with a := v, p := { withNZ v r.p with c := r.a.getLsbD 7 } } := by
  rw [opAcc_opShiftLeft, modAsl_eq]

theorem opAccLsr_eq :
    opAcc modLsr opShiftRight = fun r =>
      let v := BitVec.ofNat 8 (r.a.toNat / 2)
      { r with a := v, p := { withNZ v r.p with c := r.a.getLsbD 0 } } := by
  rw [opAcc_opShiftRight, modLsr_eq]

theorem opAccRol_eq :
    opAcc modRol opShiftLeft = fun r =>
      let v := BitVec.ofNat 8 (2 * r.a.toNat + r.p.c.toNat)
      { r with a := v, p := { withNZ v r.p with c := r.a.getLsbD 7 } } := by
  rw [opAcc_opShiftLeft, modRol_eq]

theorem opAccRor_eq :
    opAcc modRor opShiftRight = fun r =>
      let v := BitVec.ofNat 8 (128 * r.p.c.toNat + r.a.toNat / 2)
      { r with a := v, p := { withNZ v r.p with c := r.a.getLsbD 0 } } := by
  rw [opAcc_opShiftRight, modRor_eq]

/-- Settles O12: each is an official implied or accumulator instruction, with its register computation. -/
theorem registerModifyResults : Obligations.RegisterModifyResults := by
  unfold Obligations.RegisterModifyResults
  intro s shifted
  rw [← opInx_eq, ← opIny_eq, ← opDex_eq, ← opDey_eq]
  rw [← opAccAsl_eq, ← opAccLsr_eq, ← opAccRol_eq, ← opAccRor_eq]
  refine ⟨?inx, ?iny, ?dex, ?dey, ?asl, ?lsr, ?rol, ?ror⟩
  case inx | iny | dex | dey | asl | lsr | rol | ror => exact implied_of_arm (.inl rfl) rfl rfl

end Sys2Proof.Machine
end

section
/-!
PROOFS. The control transfers that use the stack or branch. JSR and RTS: O15. The eight branches: O16. BRK: O17. A pending NMI
stays pending through a cycle, unless the cycle reads PPUSTATUS, so it takes BRK over: O30.
-/

namespace Sys2Proof.Machine

/-! ## JSR and RTS (R128, R129) -/

theorem push_pc (v : Byte) (s : State) : (push v s).regs.pc = s.regs.pc := by rw [(push_law v s).1]

/-- JSR's pushes after n bytes fetched: the high and the low byte of PC as it is then. -/
theorem jsrPushes_law {n : Nat} {s t : State} (h : Fetched n s t) :
    (jsrPushes t).regs = { s.regs.plus n with sp := s.regs.sp - 2 } ∧
      Pushed [hiByte (s.regs.plus n).pc, loByte (s.regs.plus n).pc] s (jsrPushes t) := by
  obtain ⟨-, -, -, hsp, -⟩ := h.index
  have hpush := ((Pushed.nil h.2 hsp).push (hiByte t.regs.pc) (by simp)).push (loByte t.regs.pc) (by simp)
  refine ⟨?_, h.1 ▸ hpush⟩
  rw [jsrPushes, (push_law _ _).1, (push_law _ _).1, h.1]
  show ({ s.regs.plus n with sp := s.regs.sp - 1 - 1 } : Regs) = _
  rw [BitVec.sub_sub]
  rfl

theorem jumpSubroutine_eq (lo hi : Byte) (s : State) :
    jumpSubroutine lo hi s = (dummyPc (poll (jsrPushes (dummyStack (readPc s))))).jump (w16 hi lo) := by
  unfold jumpSubroutine jsrPushes
  dsimp only
  rw [push_pc]

/-- JSR after its opcode fetch: the address of its third byte pushed, PC its operand. -/
theorem jumpSubroutine_law (lo hi : Byte) {n : Nat} {s t : State} (h : Fetched n s t) :
    (jumpSubroutine lo hi t).regs = { s.regs with pc := w16 hi lo, sp := s.regs.sp - 2 } ∧
      PushedBytes [hiByte (s.regs.plus (n + 1)).pc, loByte (s.regs.plus (n + 1)).pc] s (jumpSubroutine lo hi t) := by
  obtain ⟨hregs, hpushed⟩ := jsrPushes_law h.readPc.dummyStack
  rw [jumpSubroutine_eq]
  generalize jsrPushes (dummyStack (readPc t)) = u at hregs hpushed ⊢
  obtain ⟨hregs', hkept'⟩ := (Fetched.refl u).poll.dummyPc.jump (w16 hi lo)
  refine ⟨?_, (hpushed.mono hkept' (by rw [hregs'])).1⟩
  rw [hregs', hregs]
  rfl

/-- RTS after its opcode fetch: two pulls, the low byte first, and a jump past the address they give. -/
theorem returnSubroutine_law {n : Nat} {s t : State} (h : Fetched n s t) :
    (returnSubroutine t).kept = s.kept ∧
      (returnSubroutine t).regs =
        { s.regs with pc := w16 (pulledByte s 2) (pulledByte s 1) + 1, sp := s.regs.sp + 2 } := by
  obtain ⟨hp1, hbus1⟩ := h.dummyPc.dummyStack.pulled.pull
  unfold returnSubroutine
  dsimp only
  generalize pull (dummyStack (dummyPc t)) = t1 at hp1 hbus1 ⊢
  obtain ⟨⟨hkept2, hregs2⟩, hbus2⟩ := hp1.pull
  generalize pull t1 = t2 at hkept2 hregs2 hbus2 ⊢
  rw [hbus1, hbus2]
  obtain ⟨hregs, hkept⟩ := ((Fetched.refl t2).poll.read (w16 (pulledByte s 2) (pulledByte s 1))).jump
    (w16 (pulledByte s 2) (pulledByte s 1) + 1)
  rw [hregs, hkept, hregs2]
  exact ⟨hkept2, rfl⟩

/-- Settles O15: the laws of JSR and RTS after the opcode fetch. -/
theorem subroutineResults : Obligations.SubroutineResults := by
  unfold Obligations.SubroutineResults
  intro lo hi s
  have h := readPc_fetched s
  exact ⟨⟨_, rfl, jumpSubroutine_law lo hi h⟩, ⟨_, rfl, returnSubroutine_law h⟩⟩

/-! ## Branches (R130 to R138) -/

/-- An instruction whose arm is a branch on its own condition by its operand completes at its target or past itself. -/
theorem branches_of_arm {i : Instr} {s : State}
    (harm : exec i s = .next (branch (branchTaken i) (operand1 i) (readPc s))) :
    ∃ t, exec i s = .next t ∧ t.kept = s.kept ∧
      t.regs = { s.regs with pc := if branchTaken i s.regs.p then branchTarget i s else s.regs.pc + 2 } :=
  ⟨_, harm, branch_law (branchTaken i) (operand1 i) s⟩

/-- Settles O16: the arm of each of the eight is a branch on the condition that `branchTaken` names. -/
theorem branchResults : Obligations.BranchResults := by
  unfold Obligations.BranchResults
  intro off s i hi
  fin_cases hi <;> exact branches_of_arm rfl

/-! ## BRK (R139) -/

/-- Settles O17: BRK enters a handler with B = 1 after fetching two bytes. -/
theorem brkResult : Obligations.BrkResult := by
  unfold Obligations.BrkResult
  intro s
  have h := (readPc_fetched s).readPc
  obtain ⟨-, -, -, hsp, -⟩ := h.index
  obtain ⟨taken, -, hquiet, hnext, hregs, hpushed⟩ := enterInterrupt_law true false h.2 hsp
  rw [h.1] at hregs hpushed
  exact ⟨_, taken, rfl, hnext, fun hn hc => hquiet rfl (readPc_quiet (readPc_quiet ⟨hn, hc⟩)), hregs, hpushed⟩

/-! ## A pending NMI (R180, R184, R240) -/

/-- A plain memory address is not one of a PPU register. -/
theorem not_ppu_of_memByte {s : State} {a : Word} (h : memByte s a ≠ none) : a.toNat < 0x2000 ∨ 0x4000 ≤ a.toNat := by
  by_contra hn
  refine h ?_
  unfold memByte
  rw [if_neg (by omega), if_pos (by omega)]

/-- Only a read of a PPU register can change the NMI latch. -/
theorem readAccess_nmi {a : Word} (h : a.toNat < 0x2000 ∨ 0x4000 ≤ a.toNat) (s : State) :
    (readAccess a s).nmiPending = s.nmiPending := by
  by_cases hram : a.toNat < 0x2000
  · rw [readAccess, if_pos hram, drive_nmiPending]
  · unfold readAccess readApuStatus readPort0 readPort1
    rw [if_neg hram, if_neg (by omega)]
    dsimp only
    repeat' split
    all_goals rfl

/-- The sampling at a cycle's end can set the NMI latch and never clears it (R180). -/
theorem cycleEnd_pending {s : State} (h : s.nmiPending = true) : (cycleEnd s).nmiPending = true := by
  show ((apuCycle _).nmiPending || _) = true
  rw [apuCycle_nmi, ppuDots_nmi, h, Bool.true_or]

theorem cycle_pending {access : State → State} (ha : ∀ s, (access s).nmiPending = s.nmiPending) {s : State}
    (h : s.nmiPending = true) : (cycle access s).nmiPending = true :=
  cycleEnd_pending (by rw [ha, ppuDots_nmi, h])

theorem cpuRead_pending {a : Word} {s : State} (hd : NoDma s) (ha : memByte s a ≠ none) (h : s.nmiPending = true) :
    (cpuRead a s).nmiPending = true := by
  rw [cpuRead, serviceDma_noDma a hd]
  exact cycle_pending (readAccess_nmi (not_ppu_of_memByte ha)) h

theorem readPc_pending {s : State} (hd : NoDma s) (ha : memByte s s.regs.pc ≠ none) (h : s.nmiPending = true) :
    (readPc s).nmiPending = true := by
  rw [readPc, State.jump_nmiPending]
  exact cpuRead_pending hd ha h

theorem push_pending (v : Byte) {s : State} (h : s.nmiPending = true) : (push v s).nmiPending = true := by
  rw [push, State.setSp_nmiPending]
  refine cycle_pending (fun t => ?_) h
  rw [writeAccess, drive_nmiPending, routeWrite_ram v t (stack_ram _)]

/-- With an NMI pending, entering a handler is the NMI's sequence, whatever it began as (R184). -/
theorem enterInterrupt_of_pending (b nmi : Bool) {s : State} (h : s.nmiPending = true) :
    enterInterrupt b nmi s = enterInterrupt b true s := by
  unfold enterInterrupt chooseVector
  dsimp only
  rw [push_pending _ (push_pending _ h), Bool.or_true, Bool.true_or]

/-- The last byte pushed is the first to be pulled. -/
theorem pulledByte_of_pushed {vs : List Byte} {v : Byte} {s t : State} (h : PushedBytes (vs ++ [v]) s t)
    (hsp : t.regs.sp = s.regs.sp - BitVec.ofNat 8 (vs.length + 1)) : pulledByte t 1 = v := by
  obtain ⟨hbyte, -, -⟩ := h
  have hlast : t.regs.sp + BitVec.ofNat 8 1 = s.regs.sp - BitVec.ofNat 8 vs.length := by
    rw [hsp, BitVec.ofNat_add, ← BitVec.sub_sub, BitVec.sub_add_cancel]
  rw [pulledByte, hlast]
  exact hbyte vs.length v (by simp)

/-- Settles O30: the NMI is still pending after BRK's two fetches, so the handler entered is the NMI's. -/
theorem nmiTakesOverBrk : Obligations.NmiTakesOverBrk := by
  unfold Obligations.NmiTakesOverBrk
  intro s t hn hd h0 h1 hexec
  have h := readPc_fetched s
  have hmem : memByte (readPc s) (readPc s).regs.pc ≠ none := by
    rw [kept_memByte h.2, h.1]
    exact h1
  have hpending := readPc_pending ((passes_refl s).readPc.noDma hd) hmem (readPc_pending hd h0 hn)
  have ht : t = enterInterrupt true true (readPc (readPc s)) :=
    (Host.Outcome.next.inj hexec).symm.trans (enterInterrupt_of_pending true false hpending)
  obtain ⟨-, -, -, hsp, hp⟩ := h.readPc.index
  obtain ⟨taken, hnmi, -, -, hregs, hpushed⟩ := enterInterrupt_law true true h.readPc.2 hsp
  rw [← ht, hnmi rfl] at hregs
  rw [← ht, hp] at hpushed
  refine ⟨by rw [hregs]; rfl, pulledByte_of_pushed (vs := [_, _]) hpushed ?_⟩
  rw [hregs, hsp]
  rfl

end Sys2Proof.Machine
end

section
/-!
PROOFS. CLC, SEC, CLI, SEI, CLV, CLD, SED and NOP (O19): implied instructions like the transfers, whose register computations
are, word for word, those of the statement.
-/

namespace Sys2Proof.Machine

/-! ## Flag instructions and NOP (R68, R141 to R148) -/

/-- Settles O19: each is an official implied instruction, with its register computation. -/
theorem flagInstructionResults : Obligations.FlagInstructionResults := by
  unfold Obligations.FlagInstructionResults
  intro s
  change ImpliedWith opClc .clc s ∧ ImpliedWith opSec .sec s ∧ ImpliedWith opCli .cli s ∧ ImpliedWith opSei .sei s ∧
    ImpliedWith opClv .clv s ∧ ImpliedWith opCld .cld s ∧ ImpliedWith opSed .sed s ∧ ImpliedWith opNone .nop s
  refine ⟨?clc, ?sec, ?cli, ?sei, ?clv, ?cld, ?sed, ?nop⟩
  case clc | sec | cli | sei | clv | cld | sed | nop => exact implied_of_arm (.inl rfl) rfl rfl

end Sys2Proof.Machine
end

section
/-!
PROOFS. The unofficial opcodes outside strict mode, by the class of each: NOPs (O20), the combined modifications (O22), the
combined immediates and LAS (O23), ANE and LXA under a draw (O24), the unstable stores (O25) and JAM (O21). Their register
computations are those of the official operations they combine, so `opSlo_eq` to `opSbx_eq` come from the laws of those.
-/

namespace Sys2Proof.Machine

/-! ## NOP (R150) -/

/-- Settles O20: the six NOPs of one byte are implied, five are immediates, and the others are reads; none uses its operand. -/
theorem unofficialNopResults : Obligations.UnofficialNopResults := by
  unfold Obligations.UnofficialNopResults
  intro v z lo hi s
  refine ⟨fun i hmem hr => ?_, fun i hmem hr => ?_⟩
  · change ImpliedWith opNone i s
    fin_cases hmem <;> exact implied_of_arm hr rfl rfl
  · change ReadsWith opNop i s
    fin_cases hmem
    iterate 5
      · exact reads_of_immediate hr rfl rfl
    all_goals exact reads_of_access hr rfl rfl

/-! ## Combined modifications (R151 to R156) -/

/-- SLO shifts the byte left and ORs the result into A; C is the bit shifted out. -/
theorem opSlo_eq :
    opSlo = fun m w r => { r with a := r.a ||| w, p := { withNZ (r.a ||| w) r.p with c := m.getLsbD 7 } } := by
  funext m w r
  rw [opSlo, opOra_eq]
  rfl

theorem opRla_eq :
    opRla = fun m w r => { r with a := r.a &&& w, p := { withNZ (r.a &&& w) r.p with c := m.getLsbD 7 } } := by
  funext m w r
  rw [opRla, opAnd_eq]
  rfl

theorem opSre_eq :
    opSre = fun m w r => { r with a := r.a ^^^ w, p := { withNZ (r.a ^^^ w) r.p with c := m.getLsbD 0 } } := by
  funext m w r
  rw [opSre, opEor_eq]
  rfl

/-- RRA's addition takes the bit rotated out as its carry (R154). -/
theorem opRra_eq :
    opRra = fun m w r => withResult (r.a.toInt + w.toInt + (m.getLsbD 0).toNat)
      (decide (255 < r.a.toNat + w.toNat + (m.getLsbD 0).toNat)) r := by
  funext m w r
  rw [opRra, ← opAdc, opAdc_eq]
  rfl

theorem opDcp_eq :
    opDcp = fun _ w r => { r with p := { withNZ (r.a - w) r.p with c := decide (w.toNat ≤ r.a.toNat) } } :=
  funext₃ fun _ w r => compareWith_eq r.a w r

theorem opIsc_eq :
    opIsc = fun _ w r => withResult (r.a.toInt - w.toInt - (1 - r.p.c.toNat))
      (decide (w.toNat + 1 ≤ r.a.toNat + r.p.c.toNat)) r :=
  funext₃ fun _ w r => opSbc_eq w r

/-- Settles O22: the six mnemonics are of the read-modify-write class, with results as in `modAsl_eq` to `modRor_eq` and
registers as in `opSlo_eq` to `opIsc_eq`. -/
theorem combinedModifyResults : Obligations.CombinedModifyResults := by
  unfold Obligations.CombinedModifyResults
  intro z lo hi s added
  have hadded : added = withResult := rfl
  rw [hadded, ← modAsl_eq, ← modLsr_eq, ← modRol_eq, ← modRor_eq]
  rw [← opSlo_eq, ← opRla_eq, ← opSre_eq, ← opRra_eq, ← opDcp_eq, ← opIsc_eq]
  refine ⟨fun i hmem hr => ?slo, fun i hmem hr => ?rla, fun i hmem hr => ?sre, fun i hmem hr => ?rra,
    fun i hmem hr => ?dcp, fun i hmem hr => ?isc⟩
  case slo | rla | sre | rra | dcp | isc => fin_cases hmem <;> exact modifies_of_access hr rfl rfl

/-! ## Combined immediates and LAS (R159 to R161, R164, R166) -/

theorem opAnc_eq :
    opAnc = fun m r =>
      { r with a := r.a &&& m, p := { withNZ (r.a &&& m) r.p with c := (r.a &&& m).getLsbD 7 } } := by
  funext m r
  rw [opAnc, setNZ_eq, BitVec.msb_eq_getLsbD_last]
  rfl

/-- ALR is AND, then LSR of the result. -/
theorem opAlr_eq :
    opAlr = fun m r =>
      let w : Byte := BitVec.ofNat 8 ((r.a &&& m).toNat / 2)
      { r with a := w, p := { withNZ w r.p with c := (r.a &&& m).getLsbD 0 } } := by
  funext m r
  have hshift : (r.a &&& m) >>> 1 = BitVec.ofNat 8 ((r.a &&& m).toNat / 2) := congrFun₂ modLsr_eq r.p.c (r.a &&& m)
  rw [opAlr, setNZ_eq, hshift]
  rfl

/-- ARR is AND, then ROR of the result, with C and V of its own. -/
theorem opArr_eq :
    opArr = fun m r =>
      let w : Byte := BitVec.ofNat 8 (128 * r.p.c.toNat + (r.a &&& m).toNat / 2)
      { r with a := w, p := { withNZ w r.p with c := w.getLsbD 6, v := w.getLsbD 6 ^^ w.getLsbD 5 } } := by
  funext m r
  have hrotate : (flag 8 r.p.c <<< 7) ||| ((r.a &&& m) >>> 1) =
      BitVec.ofNat 8 (128 * r.p.c.toNat + (r.a &&& m).toNat / 2) := congrFun₂ modRor_eq r.p.c (r.a &&& m)
  rw [opArr, setNZ_eq, hrotate]
  rfl

/-- SBX is a compare of A AND X whose difference goes to X. -/
theorem opSbx_eq :
    opSbx = fun m r =>
      let w : Byte := (r.a &&& r.x) - m
      { r with x := w, p := { withNZ w r.p with c := decide (m.toNat ≤ (r.a &&& r.x).toNat) } } := by
  funext m r
  rw [opSbx, setNZ_eq]
  rfl

theorem opLas_eq :
    opLas = fun m r =>
      let w : Byte := m &&& r.sp
      { r with a := w, x := w, sp := w, p := withNZ w r.p } := by
  funext m r
  rw [opLas, setNZ_eq]

/-- Settles O23: four immediates, with the registers of `opAnc_eq` to `opSbx_eq`, and the read LAS. -/
theorem immediateCombinationResults : Obligations.ImmediateCombinationResults := by
  unfold Obligations.ImmediateCombinationResults
  intro v lo hi s
  rw [← opAnc_eq, ← opAlr_eq, ← opArr_eq, ← opSbx_eq, ← opLas_eq]
  refine ⟨fun i hmem hr => ?anc, fun hr => ?alr, fun hr => ?arr, fun hr => ?sbx, fun hr => ?las⟩
  case anc => fin_cases hmem <;> exact reads_of_immediate hr rfl rfl
  case alr | arr | sbx => exact reads_of_immediate hr rfl rfl
  case las => exact reads_of_access hr rfl rfl

/-! ## ANE and LXA (R162, R163) -/

/-- An immediate instruction that takes a draw completes with the registers that `f` gives for some drawn byte. -/
theorem draws_of_arm {i : Instr} {draw : Nat → Byte} {f : Byte → Byte → Regs → Regs} {s : State} (hr : Runs i s)
    (hlen : i.length = 2) (harm : exec i s = .next (afterFetch i (immediateDraw draw f (operand1 i)) s)) :
    ∃ t magic, exec i s = .next t ∧ t.kept = s.kept ∧ t.regs = f magic (operand1 i) (pastInstr i s.regs) := by
  obtain ⟨hregs, hkept⟩ := immediateDraw_law draw f (operand1 i) (readPc_fetched s)
  rw [afterFetch_of_runs _ hr] at harm
  refine ⟨_, draw (readPc s).draws, harm, hkept, ?_⟩
  rw [hregs, pastInstr, hlen]
  rfl

theorem opAne_eq :
    opAne = fun magic m r =>
      { r with a := (r.a ||| magic) &&& r.x &&& m, p := withNZ ((r.a ||| magic) &&& r.x &&& m) r.p } := by
  funext magic m r
  rw [opAne, setNZ_eq]

theorem opLxa_eq :
    opLxa = fun magic m r =>
      { r with a := (r.a ||| magic) &&& m, x := (r.a ||| magic) &&& m, p := withNZ ((r.a ||| magic) &&& m) r.p } := by
  funext magic m r
  rw [opLxa, setNZ_eq]

/-- Settles O24: the draw that the instruction takes is the byte that the statement asks for. -/
theorem unstableImmediateResults : Obligations.UnstableImmediateResults := by
  unfold Obligations.UnstableImmediateResults
  intro v s
  refine ⟨fun hr => ?ane, fun hr => ?lxa⟩
  case ane =>
    have hx := draws_of_arm (i := .aneImm v) (draw := Config.aneMagic) (f := opAne) hr rfl rfl
    rw [opAne_eq] at hx
    exact hx
  case lxa =>
    have hx := draws_of_arm (i := .lxaImm v) (draw := Config.lxaMagic) (f := opLxa) hr rfl rfl
    rw [opLxa_eq] at hx
    exact hx

/-! ## The unstable stores (R167 to R171) -/

/-- `t` comes after `i` with S as given and, for some byte v, v stored at EA or, on a page cross, at the address with v for
its high byte; v is `value` AND the base's high byte plus 1 if no DMA is due. -/
def StoresHigh (value newSp : Regs → Byte) (i : Instr) (s : State) : Prop :=
  ∃ (t : State) (v : Byte), exec i s = .next t ∧ t.regs = { pastInstr i s.regs with sp := newSp s.regs } ∧
    Stored (if pageCrossed i s then w16 v (loByte (effAddr i s)) else effAddr i s) v s t ∧
    (NoDma s → v = value s.regs &&& (hiByte (baseIndex i s).1 + 1))

/-- An instruction whose arm is an unstable store at its address, due when the opcode fetch, the addressing mode and the read
of the uncorrected address are over, and then a change `g` of S alone. -/
theorem storesHigh_of_arm {i : Instr} {value newSp : Regs → Byte} {due : Nat} {index : State → Indexed} {g : State → State}
    {s : State} (hr : Runs i s) (hm : addressMode i.mode = true) (haddr : ∀ t, addressed i t = .inr (index t))
    (hdue : due = s.cpuCycle + (1 + addressCycles i.mode + 1))
    (harm : exec i s = .next (afterFetch i (fun t => g (storeHigh due value (index t))) s))
    (hg : ∀ t, g t = t.setSp (newSp t.regs)) (hv : ∀ (r : Regs) (n : Nat), value (r.plus n) = value r)
    (hsp : ∀ (r : Regs) (n : Nat), newSp (r.plus n) = newSp r) : StoresHigh value newSp i s := by
  have hl := addressed_law s hm
  have hp := (passes_refl s).readPc.addressed i
  rw [haddr] at hl hp
  rw [afterFetch_of_runs _ hr, hg] at harm
  generalize index (readPc s) = e at hl hp harm
  obtain ⟨hfetched, hea, hat⟩ := hl
  obtain ⟨v, hregs, hstored, hvalue⟩ := storeHigh_law due value hfetched hat (hv _ _)
  have ⟨_, _, hcrossed, _⟩ := hat
  have hread : Passes (1 + addressCycles i.mode + 1) s (cpuRead e.raw e.st) := Nat.zero_add 1 ▸ hp.read e.raw
  rw [hcrossed, hea] at hstored
  obtain ⟨hregs', hkept', -⟩ := setSp_law (newSp (storeHigh due value e).regs) (storeHigh due value e)
  refine ⟨_, v, harm, ?_, Stored.of_kept rfl hstored hkept', fun hd => hvalue ?_⟩
  · rw [hregs', hregs, hsp]
    rfl
  · rw [hread.cycles hd, hdue]

/-- Settles O25: the four mnemonics are unstable stores in an indexed mode, of which TAS alone changes S. -/
theorem unstableStoreResults : Obligations.UnstableStoreResults := by
  unfold Obligations.UnstableStoreResults
  intro z lo hi s storesHigh
  have hdef : storesHigh = fun value newSp i => StoresHigh value newSp i s := rfl
  rw [hdef]
  refine ⟨fun i hmem hr => ?sha, fun hr => ?shx, fun hr => ?shy, fun hr => ?tas⟩
  case sha =>
    fin_cases hmem <;>
      exact storesHigh_of_arm (g := fun t => t) hr rfl (fun _ => rfl) rfl rfl (fun _ => rfl) (fun _ _ => rfl) fun _ _ => rfl
  case shx | shy =>
    exact storesHigh_of_arm (g := fun t => t) hr rfl (fun _ => rfl) rfl rfl (fun _ => rfl) (fun _ _ => rfl) fun _ _ => rfl
  case tas =>
    exact storesHigh_of_arm (g := State.mapRegs _) hr rfl (fun _ => rfl) rfl rfl (fun _ => rfl) (fun _ _ => rfl)
      fun _ _ => rfl

/-! ## JAM (R149) -/

/-- Settles O21: a JAM is its opcode fetch and the halt. -/
theorem jamHalts : Obligations.JamHalts := by
  unfold Obligations.JamHalts
  intro s i hmem hr
  obtain ⟨hregs, hkept⟩ := readPc_fetched s
  have hjam : exec i s = .next (afterFetch i (fun t => { t with halted := true }) s) := by fin_cases hmem <;> rfl
  have hlen : i.length = 1 := by fin_cases hmem <;> rfl
  rw [afterFetch_of_runs _ hr] at hjam
  refine ⟨_, hjam, rfl, ?_, ?_⟩
  · rw [pastInstr, hlen]
    exact hregs
  · rw [← hkept]
    rfl

end Sys2Proof.Machine
end

section
/-!
PROOFS. What makes the CPU halted or a state fatal (O35). No bus access halts the CPU, nor does an arm of `exec` but JAM's
(`exec_halted`); `step_cases` says what a step that answers a next state can be.
-/

namespace Sys2Proof.Machine

/-! ## The halted flag through the named operations -/

@[simp] theorem cpuRead_halted (a : Word) (s : State) : (cpuRead a s).halted = s.halted := kept_halted (cpuRead_same a s).2

@[simp] theorem cpuWrite_halted (a : Word) (v : Byte) (s : State) : (cpuWrite a v s).halted = s.halted :=
  (cpuWrite_stored a v s).halted

@[simp] theorem readPc_halted (s : State) : (readPc s).halted = s.halted := kept_halted (readPc_fetched s).2

@[simp] theorem dummyPc_halted (s : State) : (dummyPc s).halted = s.halted := cpuRead_halted _ s

@[simp] theorem dummyStack_halted (s : State) : (dummyStack s).halted = s.halted := cpuRead_halted _ s

@[simp] theorem push_halted (v : Byte) (s : State) : (push v s).halted = s.halted := by simp [push]

@[simp] theorem pull_halted (s : State) : (pull s).halted = s.halted := cpuRead_halted _ (s.setSp _)

@[simp] theorem chooseVector_halted (nmi : Bool) (s : State) : (chooseVector nmi s).2.halted = s.halted := by
  unfold chooseVector
  split <;> rfl

@[simp] theorem jumpThrough_halted (a a' : Word) (s : State) : (jumpThrough a a' s).halted = s.halted := by
  simp [jumpThrough]

@[simp] theorem enterInterrupt_halted (b nmi : Bool) (s : State) : (enterInterrupt b nmi s).halted = s.halted := by
  simp [enterInterrupt]

/-! ## The halted flag through the classes of instructions -/

theorem addressed_halted (i : Instr) (s : State) : (stateOf (addressed i s)).halted = s.halted := by
  unfold addressed
  cases i.mode <;> simp [stateOf, zp, zpIndexed, abs, absIndexed, indexFrom, izx, izy]

theorem modifyAt_halted (g : Bool → Byte → Byte) (f : Byte → Byte → Regs → Regs) (ea : Word) (s : State) :
    (modifyAt g f ea s).halted = s.halted := by
  simp [modifyAt]

theorem readIndexed_halted (f : Byte → Regs → Regs) (e : Indexed) : (readIndexed f e).halted = e.st.halted := by
  unfold readIndexed
  cases e.crossed <;> simp

theorem Access.run_halted (c : Access) (e : Plain ⊕ Indexed) : (c.run e).halted = (stateOf e).halted := by
  cases c with
  | read f =>
    cases e with
    | inl e => simp [readPlain, stateOf]
    | inr e => exact readIndexed_halted f e
  | write value => cases e <;> simp [writePlain, writeIndexed, stateOf]
  | modify g f => cases e <;> simp [rmwPlain, rmwIndexed, modifyAt_halted, stateOf]

theorem branch_halted (taken : Flags → Bool) (off : Byte) (s : State) : (branch taken off s).halted = s.halted := by
  unfold branch
  dsimp only
  repeat' split
  all_goals simp

theorem storeHigh_halted (due : Nat) (value : Regs → Byte) (e : Indexed) : (storeHigh due value e).halted = e.st.halted := by
  simp [storeHigh]

/-- What follows the opcode fetch decides, since the strict-mode check halts nothing (R83, R174). -/
theorem afterFetch_halted {k : State → State} (hk : ∀ t, (k t).halted = t.halted) (i : Instr) (s : State) :
    (afterFetch i k s).halted = s.halted := by
  unfold afterFetch unofficial
  dsimp only
  split
  · simp [hk]
  split <;> simp [hk]

/-- Only a JAM halts the CPU (R149). -/
theorem exec_halted {i : Instr} (hi : i.mnemonic ≠ .jam) (s : State) : ∃ t, exec i s = .next t ∧ t.halted = s.halted := by
  by_cases hclass : addressMode i.mode = true ∧ ∃ c, accessOf i.mnemonic = some c
  · obtain ⟨hm, c, hc⟩ := hclass
    exact ⟨_, exec_arm hm hc s, afterFetch_halted (fun t => (c.run_halted _).trans (addressed_halted i t)) i s⟩
  have ends {k : State → State} (harm : exec i s = .next (afterFetch i k s)) (hk : ∀ t, (k t).halted = t.halted) :
      ∃ t, exec i s = .next t ∧ t.halted = s.halted := ⟨_, harm, afterFetch_halted hk i s⟩
  cases i
  case clc | sec | cli | sei | clv | cld | sed | nop | tax | tay | txa | tya | tsx | txs | inx | iny | dex | dey
      | aslAcc | lsrAcc | rolAcc | rorAcc | nop1A | nop3A | nop5A | nop7A | nopDA | nopFA =>
    exact ends (k := implied _) rfl fun t => by simp [implied]
  case ldaImm | ldxImm | ldyImm | adcImm | sbcImm | usbcImm | andImm | oraImm | eorImm | cmpImm | cpxImm | cpyImm
      | ancImm0B | ancImm2B | alrImm | arrImm | sbxImm | nopImm80 | nopImm82 | nopImm89 | nopImmC2 | nopImmE2 =>
    exact ends (k := immediate _ _) rfl fun t => by simp [immediate]
  case aneImm | lxaImm => exact ends (k := immediateDraw _ _ _) rfl fun t => by simp [immediateDraw, immediate]
  case bpl | bmi | bvc | bvs | bcc | bcs | bne | beq => exact ends (k := branch _ _) rfl (branch_halted _ _)
  case pha | php => exact ends (k := pushReg _) rfl fun t => by simp [pushReg]
  case pla | plp => exact ends (k := pullReg _) rfl fun t => by simp [pullReg]
  case jmpAbs => exact ends (k := jumpAbs _ _) rfl fun t => by simp [jumpAbs]
  case jmpInd => exact ends (k := jumpIndirect _ _) rfl fun t => by simp [jumpIndirect]
  case jsr => exact ends (k := jumpSubroutine _ _) rfl fun t => by simp [jumpSubroutine]
  case rts => exact ends (k := returnSubroutine) rfl fun t => by simp [returnSubroutine]
  case brk => exact ends (k := breakSequence) rfl fun t => by simp [breakSequence]
  case rti => exact ends (k := fun t => returnFromInterrupt (dummyPc t)) rfl fun t => by simp [returnFromInterrupt]
  case shaAby | shxAby | shyAbx =>
    exact ends (k := fun t => storeHigh _ _ (absIndexed _ _ _ t)) rfl
      fun t => by simp [storeHigh_halted, absIndexed, indexFrom]
  case shaIzy =>
    exact ends (k := fun t => storeHigh _ _ (izy _ t)) rfl fun t => by simp [storeHigh_halted, izy, indexFrom]
  case tasAby =>
    exact ends (k := fun t => (storeHigh _ _ (absIndexed _ _ _ t)).mapRegs _) rfl
      fun t => by simp [storeHigh_halted, absIndexed, indexFrom]
  case jam02 | jam12 | jam22 | jam32 | jam42 | jam52 | jam62 | jam72 | jam92 | jamB2 | jamD2 | jamF2 =>
    exact absurd rfl hi
  all_goals exact absurd ⟨rfl, _, rfl⟩ hclass

/-! ## Steps (R149, R173, R181, R288, R299) -/

/-- What a step that answers a next state can be; no condition is fatal before it. -/
theorem step_cases {s t : State} (h : step s = .next t) :
    s.fatal = none ∧ (t = resetSequence s ∨ (s.halted = true ∧ t = haltedStep s) ∨ (∃ kind, t = interruptSequence kind s) ∨
      exec (fetchInstr s) s = .next t) := by
  unfold step at h
  split at h
  · cases h
  next hfatal =>
    refine ⟨hfatal, ?_⟩
    split at h
    · exact .inl (Host.Outcome.next.inj h).symm
    split at h
    · next hhalted => exact .inr (.inl ⟨hhalted, (Host.Outcome.next.inj h).symm⟩)
    split at h
    · exact .inr (.inr (.inl ⟨_, (Host.Outcome.next.inj h).symm⟩))
    · exact .inr (.inr (.inr h))

theorem Passes.suppressedPush {n : Nat} {s t : State} (h : Passes n s t) : Passes (n + 1) s (suppressedPush t) :=
  h.dummyStack.setSp _

theorem resetSequence_fatal (s : State) : (resetSequence s).fatal = s.fatal := by
  have hpushes := (passes_refl s).dummyPc.dummyPc.suppressedPush.suppressedPush.suppressedPush
  have hjump := (hpushes.mapRegs opSei).jumpThrough 0xFFFC 0xFFFD
  unfold resetSequence
  dsimp only
  rw [hjump.fatal]

/-- Settles O35: no case of a step sets a fatal condition outside strict mode; the reset sequence ends unhalted, a halted
cycle began halted, and neither an interrupt sequence nor an instruction but JAM changes the flag. -/
theorem onlyStrictModeIsFatalOnlyJamHalts : Obligations.OnlyStrictModeIsFatalOnlyJamHalts := by
  unfold Obligations.OnlyStrictModeIsFatalOnlyJamHalts
  refine ⟨fun s t hs h => ?fatal, fun s k hk => step_fatal hk, fun s t h hhalted => ?halts⟩
  case fatal =>
    obtain ⟨hnone, rfl | ⟨-, rfl⟩ | ⟨kind, rfl⟩ | hx⟩ := step_cases h
    · exact (resetSequence_fatal s).trans hnone
    · exact ((passes_refl s).read _).fatal.trans hnone
    · exact ((passes_refl s).dummyPc.dummyPc.enterInterrupt _ _).fatal.trans hnone
    · obtain ⟨-, hfatal⟩ := strictModeIsFatal
      exact (hfatal _ s t hs hx).trans hnone
  case halts =>
    obtain ⟨-, rfl | ⟨hs, -⟩ | ⟨kind, rfl⟩ | hx⟩ := step_cases h
    · cases hhalted
    · exact .inl hs
    · exact .inl (by simpa [interruptSequence] using hhalted)
    · by_cases hjam : (fetchInstr s).mnemonic = .jam
      · exact .inr hjam
      · obtain ⟨u, hu, hsame⟩ := exec_halted hjam s
        cases hu.symm.trans hx
        exact .inl (hsame.symm.trans hhalted)

end Sys2Proof.Machine
end

section
/-!
PROOFS. What a PPU dot does to the position, the frame's flags and the sprite counts, said once (`ppuDot_ppu`, `Rendered`), and an
invariant of every step by induction on its path (`step_invariant`). From both: the PPU stays in range (O36) and the timing of
one dot (O47).
-/

namespace Sys2Proof.Machine

/-! ## Invariants of a step -/

/-- A predicate that every bus cycle and every change inside the CPU keeps holds along a path. -/
theorem Path.invariant {P : State → Prop} (hcycle : ∀ {access : State → State}, BusAccess access → ∀ s, P s → P (Machine.cycle access s))
    (hinternal : ∀ {unmasks : Prop} {s t : State}, Internal unmasks s t → P s → P t) {unmasks : Prop} {s t : State}
    (h : Path unmasks s t) (hs : P s) : P t := by
  induction h with
  | start => exact hs
  | cycle _ ha ih => exact hcycle ha _ ih
  | internal _ hi ih => exact hinternal hi ih

/-- A predicate that bus cycles, changes inside the CPU and ends keep is kept by every step. -/
theorem step_invariant {P : State → Prop} (hcycle : ∀ {access : State → State}, BusAccess access → ∀ s, P s → P (Machine.cycle access s))
    (hinternal : ∀ {unmasks : Prop} {s t : State}, Internal unmasks s t → P s → P t)
    (hends : ∀ {s t : State}, Ends s t → P s → P t) {s t : State} (h : step s = .next t) (hs : P s) : P t := by
  obtain ⟨unmasks, a, u, hpath, hend⟩ := step_completes h
  have hread : Path unmasks s (cpuRead a s) := cpuRead_path .start a
  exact hends hend (hpath.invariant hcycle hinternal (hread.invariant hcycle hinternal hs))

/-! ## The rendering work of a dot -/

/-- What the rendering work of a dot leaves alone: the position, the mask, the frame and its flags, but for sprite overflow. -/
def Ppu.timing (p : Ppu) : Ppu :=
  { Ppu.powerOn with
    scanline := p.scanline, dot := p.dot, oddFrame := p.oddFrame, mask := p.mask, vblankFlag := p.vblankFlag
    sprite0Hit := p.sprite0Hit, warmup := p.warmup, frame := p.frame, published := p.published, vblSuppress := p.vblSuppress }

/-- What the rendering work of a dot may have made of `p`: sprite overflow is set on visible lines only, and at most eight
sprites are found (R250 to R252). -/
structure Rendered (p q : Ppu) : Prop where
  timing : q.timing = p.timing
  overflow : 239 < p.scanline → q.spriteOverflow = p.spriteOverflow
  counts : p.evalCount ≤ 8 ∧ p.lineCount ≤ 8 → q.evalCount ≤ 8 ∧ q.lineCount ≤ 8

theorem Rendered.refl (p : Ppu) : Rendered p p := ⟨rfl, fun _ => rfl, id⟩

theorem timing_scanline {p q : Ppu} (h : q.timing = p.timing) : q.scanline = p.scanline := by
  have e := congrArg (fun r : Ppu => r.scanline) h
  exact e

theorem timing_dot {p q : Ppu} (h : q.timing = p.timing) : q.dot = p.dot := by
  have e := congrArg (fun r : Ppu => r.dot) h
  exact e

theorem Rendered.trans {p q r : Ppu} (h : Rendered p q) (k : Rendered q r) : Rendered p r where
  timing := k.timing.trans h.timing
  overflow hp := (k.overflow (timing_scanline h.timing ▸ hp)).trans (h.overflow hp)
  counts hp := k.counts (h.counts hp)

theorem bgFetch_rendered (s : State) : Rendered s.ppu (bgFetch s).ppu := by
  unfold bgFetch
  dsimp only
  split
  · split <;> exact ⟨rfl, fun _ => rfl, id⟩
  · split <;> exact ⟨rfl, fun _ => rfl, id⟩

theorem shiftRegs_rendered (p : Ppu) : Rendered p p.shiftRegs := by
  unfold Ppu.shiftRegs
  dsimp only
  split
  · split <;> exact ⟨rfl, fun _ => rfl, id⟩
  · exact .refl p

/-- The evaluation's first loop finds eight sprites at most (R250). -/
theorem evalCopy_count_le (p : Ppu) (h line fuel : Nat) (e : EvalScan) (he : e.count ≤ 8) :
    (evalCopy p h line fuel e).count ≤ 8 := by
  induction fuel generalizing e with
  | zero => exact he
  | succ fuel ih =>
    unfold evalCopy
    split
    · next hmore =>
      have hlt : e.count < 8 := by simp at hmore; exact hmore.2
      split
      · exact ih _ hlt
      · exact ih _ he
    · exact he

theorem evaluate_rendered (p : Ppu) : Rendered p p.evaluate := by
  have hcount := evalCopy_count_le p p.spriteHeight p.scanline 64
    { sec := p.secOam, count := 0, spr0 := false, k := 0, n := 0 } (Nat.zero_le 8)
  unfold Ppu.evaluate
  exact ⟨rfl, fun _ => rfl, fun h => ⟨hcount, h.2⟩⟩

theorem drawnEvaluation_rendered (s : State) : Rendered s.ppu (drawnEvaluation s).ppu :=
  ⟨rfl, fun _ => rfl, fun h => ⟨Nat.le_of_lt_succ (Config.spriteEval s.draws).count.isLt, h.2⟩⟩

theorem spriteEvalDot_rendered (s : State) : Rendered s.ppu (spriteEvalDot s).ppu := by
  unfold spriteEvalDot
  dsimp only
  split
  · next hline =>
    have overflow {t : State} (ht : Rendered s.ppu t.ppu) :
        Rendered s.ppu (if t.ppu.evalOvfDot = some s.ppu.dot then { t with ppu := { t.ppu with spriteOverflow := true } }
          else t).ppu := by
      split
      · exact ⟨ht.timing, fun h => absurd hline (Nat.not_le.2 h), ht.counts⟩
      · exact ht
    apply overflow
    split
    · exact ⟨rfl, fun _ => rfl, id⟩
    split
    · split
      · exact evaluate_rendered s.ppu
      · exact drawnEvaluation_rendered s
    · exact .refl _
  · exact .refl _

theorem slotFetch_rendered (i k : Nat) (s : State) : Rendered s.ppu (slotFetch i k s).ppu := by
  unfold slotFetch
  repeat' split
  all_goals exact ⟨rfl, fun _ => rfl, id⟩

theorem handSprites_rendered (p : Ppu) : Rendered p p.handSprites := by
  unfold Ppu.handSprites
  split
  · split
    · exact ⟨rfl, fun _ => rfl, fun h => ⟨h.1, h.1⟩⟩
    · exact ⟨rfl, fun _ => rfl, fun h => ⟨h.1, Nat.zero_le 8⟩⟩
  · exact .refl p

theorem oamAddr_rendered (p : Ppu) (v : Byte) : Rendered p { p with oamAddr := v } := ⟨rfl, fun _ => rfl, id⟩

theorem spriteFetchDot_rendered (s : State) : Rendered s.ppu (spriteFetchDot s).ppu := by
  unfold spriteFetchDot
  dsimp only
  split
  · have hfetch := slotFetch_rendered ((s.ppu.dot - 257) / 8) ((s.ppu.dot - 257) % 8) s
    generalize slotFetch ((s.ppu.dot - 257) / 8) ((s.ppu.dot - 257) % 8) s = t at hfetch ⊢
    exact (hfetch.trans (oamAddr_rendered t.ppu 0)).trans (handSprites_rendered _)
  · exact .refl _

theorem renderDot_rendered (s : State) : Rendered s.ppu (renderDot s).ppu := by
  unfold renderDot
  split
  · have hfetch := (bgFetch_rendered s).trans (shiftRegs_rendered _)
    have hsprites := (hfetch.trans (spriteEvalDot_rendered { bgFetch s with ppu := (bgFetch s).ppu.shiftRegs })).trans
      (spriteFetchDot_rendered _)
    exact hsprites.trans ⟨rfl, fun _ => rfl, id⟩
  · exact ⟨rfl, fun _ => rfl, id⟩

theorem ppuObserve_ppu (s : State) : (ppuObserve s).ppu = s.ppu := by
  unfold ppuObserve
  split <;> rfl

/-- One dot: the frame's events, the rendering work, the pixel and the advance of the position (R237, log 10). -/
theorem ppuDot_ppu (s : State) : ∃ q, Rendered s.ppu.frameEvents q ∧ (ppuDot s).ppu = q.output.advance :=
  ⟨_, renderDot_rendered { s with ppu := s.ppu.frameEvents }, ppuObserve_ppu _⟩

/-! ## The PPU stays in range (R237, R250, R252) -/

/-- `PpuInv`, as a predicate on the PPU. -/
def Ppu.InRange (p : Ppu) : Prop := p.scanline ≤ 261 ∧ p.dot ≤ 340 ∧ p.evalCount ≤ 8 ∧ p.lineCount ≤ 8

/-- The fields that the PPU's range is about. -/
def Ppu.place (p : Ppu) : Nat × Nat × Nat × Nat := (p.scanline, p.dot, p.evalCount, p.lineCount)

theorem Ppu.InRange.of_place {p q : Ppu} (h : p.InRange) (hq : q.place = p.place) : q.InRange := by
  simp only [Ppu.place, Prod.mk.injEq] at hq
  obtain ⟨hline, hdot, heval, hcount⟩ := hq
  unfold Ppu.InRange
  rw [hline, hdot, heval, hcount]
  exact h

theorem Ppu.InRange.rendered {p q : Ppu} (h : p.InRange) (hr : Rendered p q) : q.InRange := by
  obtain ⟨hline, hdot, hcounts⟩ := h
  exact ⟨(timing_scanline hr.timing).trans_le hline, (timing_dot hr.timing).trans_le hdot, hr.counts hcounts⟩

theorem frameEvents_place (p : Ppu) : p.frameEvents.place = p.place := by
  unfold Ppu.frameEvents
  split
  · rfl
  split <;> rfl

theorem output_place (p : Ppu) : p.output.place = p.place := by
  unfold Ppu.output
  split <;> rfl

/-- The position moves within the grid of 262 by 341 (R237, R242). -/
theorem Ppu.InRange.advance {p : Ppu} (h : p.InRange) : p.advance.InRange := by
  obtain ⟨hline, hdot, hcounts⟩ := h
  unfold Ppu.advance
  split
  · exact ⟨Nat.zero_le _, Nat.zero_le _, hcounts⟩
  split
  · split
    · exact ⟨Nat.zero_le _, Nat.zero_le _, hcounts⟩
    · next hlast => exact ⟨Nat.lt_of_le_of_ne hline hlast, Nat.zero_le _, hcounts⟩
  · next hlast => exact ⟨hline, Nat.lt_of_le_of_ne hdot hlast, hcounts⟩

theorem ppuDot_inRange {s : State} (h : s.ppu.InRange) : (ppuDot s).ppu.InRange := by
  obtain ⟨q, hq, hdot⟩ := ppuDot_ppu s
  rw [hdot]
  exact (((h.of_place (frameEvents_place _)).rendered hq).of_place (output_place q)).advance

theorem ppuDots_inRange (n : Nat) {s : State} (h : s.ppu.InRange) : (ppuDots n s).ppu.InRange := by
  induction n generalizing s with
  | zero => exact h
  | succ n ih => exact ih (ppuDot_inRange h)

theorem apuCycle_ppu (s : State) : (apuCycle s).ppu = s.ppu := by
  unfold apuCycle sampleCheck dmcReader
  dsimp only
  repeat' split
  all_goals rfl

theorem cycleEnd_inRange {s : State} (h : s.ppu.InRange) : (cycleEnd s).ppu.InRange := by
  show (apuCycle _).ppu.InRange
  rw [apuCycle_ppu]
  exact ppuDots_inRange _ h

/-! ## Register accesses leave the position alone -/

theorem readStatus_place (s : State) : (readStatus s).ppu.place = s.ppu.place := by
  unfold readStatus raceNmi
  dsimp only
  repeat' split
  all_goals rfl

theorem readAccess_place (a : Word) (s : State) : (readAccess a s).ppu.place = s.ppu.place := by
  unfold readAccess ppuRegRead
  split
  · rfl
  split
  · split
    · exact readStatus_place s
    unfold readOamData readData
    dsimp only
    repeat' split
    all_goals rfl
  unfold readPort0 readPort1
  dsimp only
  repeat' split
  all_goals rfl

theorem writeCtrl_place (v : Byte) (p : Ppu) : (p.writeCtrl v).place = p.place := by
  unfold Ppu.writeCtrl
  split <;> rfl

theorem writeMask_place (v : Byte) (p : Ppu) : (p.writeMask v).place = p.place := by
  unfold Ppu.writeMask
  split <;> rfl

theorem writeOamData_place (v : Byte) (p : Ppu) : (p.writeOamData v).place = p.place := by
  unfold Ppu.writeOamData
  split <;> rfl

theorem writeScroll_place (v : Byte) (p : Ppu) : (p.writeScroll v).place = p.place := by
  unfold Ppu.writeScroll
  split
  · rfl
  split <;> rfl

theorem writeAddr_place (v : Byte) (p : Ppu) : (p.writeAddr v).place = p.place := by
  unfold Ppu.writeAddr
  split
  · rfl
  split <;> rfl

theorem ppuWrite_ppu (a : PpuAddr) (v : Byte) (s : State) : (ppuWrite a v s).ppu = s.ppu := by
  unfold ppuWrite
  split
  · rfl
  split <;> rfl

theorem writeData_place (v : Byte) (s : State) : (writeData v s).ppu.place = s.ppu.place := by
  unfold writeData
  dsimp only
  split
  · rfl
  split
  · rw [ppuWrite_ppu]
    rfl
  · rfl

theorem ppuRegWrite_place (r : BitVec 3) (v : Byte) (s : State) : (ppuRegWrite r v s).ppu.place = s.ppu.place := by
  unfold ppuRegWrite
  dsimp only
  split
  · exact writeCtrl_place v _
  split
  · exact writeMask_place v _
  split
  · rfl
  split
  · rfl
  split
  · exact writeOamData_place v _
  split
  · exact writeScroll_place v _
  split
  · exact writeAddr_place v _
  · exact writeData_place v _

theorem writeAccess_place (a : Word) (v : Byte) (s : State) : (writeAccess a v s).ppu.place = s.ppu.place := by
  unfold writeAccess routeWrite writeStrobe
  split
  · rfl
  split
  · exact ppuRegWrite_place _ v s
  repeat' split
  all_goals rfl

theorem dmcDone_ppu (b : Byte) (s : State) : (dmcDone b s).ppu = s.ppu := by
  unfold dmcDone
  split <;> rfl

theorem BusAccess.place {access : State → State} (h : BusAccess access) (s : State) : (access s).ppu.place = s.ppu.place := by
  cases h with
  | read a => exact readAccess_place a s
  | write a v => exact writeAccess_place a v s
  | sample => exact (congrArg Ppu.place (dmcDone_ppu _ _)).trans (readAccess_place _ s)

theorem BusAccess.cycle_inRange {access : State → State} (h : BusAccess access) (s : State) (hs : s.ppu.InRange) :
    (cycle access s).ppu.InRange :=
  cycleEnd_inRange ((ppuDots_inRange _ hs).of_place (h.place _))

/-- Settles O36: a dot moves the position within the grid and finds eight sprites at most, and no register access, no end of a
step touches either. -/
theorem ppuStaysInRange : Obligations.PpuStaysInRange := by
  unfold Obligations.PpuStaysInRange
  intro s t hs h
  refine step_invariant (P := fun u => u.ppu.InRange) BusAccess.cycle_inRange (fun hi hu => ?_) (fun he hu => ?_) h hs
  · cases hi <;> exact hu
  · cases he
    exact hu

/-! ## The timing of a dot (R237 to R242, R257) -/

/-- The pixel of a dot changes the frame, and sprite 0's hit on visible lines (R253 to R255). -/
theorem output_eq (p : Ppu) :
    ∃ frame hit, p.output = { p with frame := frame, sprite0Hit := hit } ∧ (239 < p.scanline → hit = p.sprite0Hit) := by
  unfold Ppu.output
  split
  · next h =>
    have hline : p.scanline ≤ 239 := by simp at h; exact h.1.1
    exact ⟨_, _, rfl, fun h => absurd hline (Nat.not_le.2 h)⟩
  · exact ⟨p.frame, p.sprite0Hit, rfl, fun _ => rfl⟩

/-- The advance changes the position and drops an overflow dot. -/
theorem advance_eq (p : Ppu) :
    p.advance = { p with
      scanline := p.advance.scanline, dot := p.advance.dot, oddFrame := p.advance.oddFrame
      evalOvfDot := p.advance.evalOvfDot } := by
  unfold Ppu.advance
  split
  · rfl
  split
  · split <;> rfl
  · rfl

/-- The odd frame's skipped dot (R242). -/
def Ppu.skips (p : Ppu) : Prop := p.scanline = 261 ∧ p.dot = 339 ∧ p.oddFrame = true ∧ p.renderingEnabled = true

theorem advance_of_skips {p : Ppu} (h : p.skips) :
    p.advance = { p with scanline := 0, dot := 0, oddFrame := false, evalOvfDot := none } := by
  obtain ⟨hline, hdot, hodd, hrend⟩ := h
  unfold Ppu.advance
  rw [if_pos (by simp [hline, hdot, hodd, hrend])]

/-- But for the skipped dot, the advance counts through the 89342 dots of a frame (R237). -/
theorem advance_position {p : Ppu} (hline : p.scanline ≤ 261) (hdot : p.dot ≤ 340) (hs : ¬p.skips) :
    341 * p.advance.scanline + p.advance.dot = (341 * p.scanline + p.dot + 1) % 89342 ∧
      p.advance.oddFrame = (if 341 * p.scanline + p.dot = 89341 then !p.oddFrame else p.oddFrame) := by
  unfold Ppu.advance
  rw [if_neg (by simpa [Ppu.skips, and_assoc] using hs)]
  split
  · split
    · exact ⟨by dsimp only; omega, by rw [if_pos (by omega)]⟩
    · exact ⟨by dsimp only; omega, by rw [if_neg (by omega)]⟩
  · exact ⟨by dsimp only; omega, by rw [if_neg (by omega)]⟩

/-- The flags after a dot are those its frame events leave (R239, R241, R257). -/
theorem ppuDot_flags (s : State) :
    (ppuDot s).ppu.vblankFlag = s.ppu.frameEvents.vblankFlag ∧ (ppuDot s).ppu.published = s.ppu.frameEvents.published ∧
      (ppuDot s).ppu.warmup = s.ppu.frameEvents.warmup ∧
      (239 < s.ppu.scanline → (ppuDot s).ppu.sprite0Hit = s.ppu.frameEvents.sprite0Hit ∧
        (ppuDot s).ppu.spriteOverflow = s.ppu.frameEvents.spriteOverflow) := by
  obtain ⟨q, hq, hdot⟩ := ppuDot_ppu s
  obtain ⟨frame, hit, hout, hhit⟩ := output_eq q
  have hline : s.ppu.frameEvents.scanline = s.ppu.scanline := congrArg Prod.fst (frameEvents_place s.ppu)
  have hqline := (timing_scanline hq.timing).trans hline
  rw [hdot, advance_eq, hout]
  refine ⟨?_, ?_, ?_, fun h => ⟨(hhit (hqline ▸ h)).trans ?_, hq.overflow (hline ▸ h)⟩⟩
  · have e := congrArg (fun r : Ppu => r.vblankFlag) hq.timing
    exact e
  · have e := congrArg (fun r : Ppu => r.published) hq.timing
    exact e
  · have e := congrArg (fun r : Ppu => r.warmup) hq.timing
    exact e
  · have e := congrArg (fun r : Ppu => r.sprite0Hit) hq.timing
    exact e

theorem frameEvents_frame (p : Ppu) :
    p.frameEvents.scanline = p.scanline ∧ p.frameEvents.dot = p.dot ∧ p.frameEvents.oddFrame = p.oddFrame ∧
      p.frameEvents.mask = p.mask := by
  unfold Ppu.frameEvents
  split
  · exact ⟨rfl, rfl, rfl, rfl⟩
  split <;> exact ⟨rfl, rfl, rfl, rfl⟩

/-- A dot advances the position that it found. -/
theorem ppuDot_advance (s : State) :
    ∃ r : Ppu, (ppuDot s).ppu = r.advance ∧ r.scanline = s.ppu.scanline ∧ r.dot = s.ppu.dot ∧
      r.oddFrame = s.ppu.oddFrame ∧ r.mask = s.ppu.mask := by
  obtain ⟨q, hq, hdot⟩ := ppuDot_ppu s
  obtain ⟨frame, hit, hout, -⟩ := output_eq q
  obtain ⟨eline, edot, eodd, emask⟩ := frameEvents_frame s.ppu
  refine ⟨_, hdot, ?_⟩
  rw [hout]
  refine ⟨(timing_scanline hq.timing).trans eline, (timing_dot hq.timing).trans edot, ?_, ?_⟩
  · have e := congrArg (fun r : Ppu => r.oddFrame) hq.timing
    exact Eq.trans e eodd
  · have e := congrArg (fun r : Ppu => r.mask) hq.timing
    exact Eq.trans e emask

/-- Settles O47: the flags are those of the frame events, the position that of the advance. -/
theorem dotTiming : Obligations.DotTiming := by
  unfold Obligations.DotTiming
  intro s hs p q
  obtain ⟨hvblank, hpublished, hwarmup, hhit⟩ := ppuDot_flags s
  obtain ⟨hline, hdot, -⟩ := hs
  refine ⟨fun h => ?vblank, fun h => ?preRender, fun h241 h261 => ?elsewhere, ?position⟩
  case vblank =>
    rw [hvblank, Ppu.frameEvents, if_pos (by simpa using h)]
  case preRender =>
    obtain ⟨hhit, hoverflow⟩ := hhit (h.1 ▸ by decide)
    have hevents : p.frameEvents = { p with
        vblankFlag := false, sprite0Hit := false, spriteOverflow := false, warmup := false, vblSuppress := false
        published := some p.frame, frames := p.frames + 1 } := by
      rw [Ppu.frameEvents, if_neg (by simp [h.1]), if_pos (by simpa using h)]
    rw [hevents] at hvblank hpublished hwarmup hhit hoverflow
    exact ⟨hvblank, hhit, hoverflow, hwarmup, hpublished⟩
  case elsewhere =>
    have hevents : p.frameEvents = p := by
      rw [Ppu.frameEvents, if_neg (by simpa using h241), if_neg (by simpa using h261)]
    rw [hevents] at hvblank hpublished hwarmup
    exact ⟨hvblank, hpublished, hwarmup⟩
  case position =>
    obtain ⟨r, hr, eline, edot, eodd, emask⟩ := ppuDot_advance s
    have hskips : r.skips ↔ p.skips := by
      unfold Ppu.skips Ppu.renderingEnabled
      rw [eline, edot, eodd, emask]
    have hadvance := advance_position (p := r) (eline ▸ hline) (edot ▸ hdot)
    rw [hskips, eline, edot, eodd, ← hr] at hadvance
    refine ⟨hadvance, fun h => ?_⟩
    have hskip := hr.trans (advance_of_skips (hskips.2 h))
    exact ⟨congrArg Ppu.scanline hskip, congrArg Ppu.dot hskip, congrArg Ppu.oddFrame hskip⟩

end Sys2Proof.Machine
end

section
/-!
PROOFS. What time and the bus do to the APU, said once: which fields a dot, a read, a write and the frame sequencer leave alone,
and what the sequencer and the timers do to the length counters. From it: the APU stays in range (O37), the length index write
(O49), $4015 (O50), the frame sequencer (O51).
-/

namespace Sys2Proof.Machine

/-! ## What a cycle's dots and bus access leave of the state -/

/-- Dots change the PPU, the count of draws and the mapper's registers, and nothing else (R237, R258). -/
theorem ppuDot_eq (s : State) :
    ∃ ppu draws mmc3, ppuDot s = { s with ppu := ppu, draws := draws, cart := { s.cart with mmc3 := mmc3 } } := by
  have hwork := renderDot_work { s with ppu := s.ppu.frameEvents }
  unfold ppuDot ppuObserve
  generalize renderDot { s with ppu := s.ppu.frameEvents } = t at hwork ⊢
  cases hwork
  dsimp only
  split
  · exact ⟨_, _, s.cart.mmc3, rfl⟩
  · exact ⟨_, _, _, rfl⟩

theorem ppuDots_eq (n : Nat) (s : State) :
    ∃ ppu draws mmc3, ppuDots n s = { s with ppu := ppu, draws := draws, cart := { s.cart with mmc3 := mmc3 } } := by
  induction n generalizing s with
  | zero => exact ⟨s.ppu, s.draws, s.cart.mmc3, rfl⟩
  | succ n ih =>
    obtain ⟨p, d, m, hdot⟩ := ppuDot_eq s
    obtain ⟨p', d', m', hdots⟩ := ih (ppuDot s)
    refine ⟨p', d', m', hdots.trans ?_⟩
    rw [hdot]

theorem ppuDots_apu (n : Nat) (s : State) : (ppuDots n s).apu = s.apu := by
  obtain ⟨_, _, _, h⟩ := ppuDots_eq n s
  rw [h]

/-- A read changes the APU in the frame interrupt flag alone, which only a read of $4015 clears (R264). -/
theorem readAccess_apu (a : Word) (s : State) : ∃ irq, (readAccess a s).apu = { s.apu with frameIrq := irq } := by
  by_cases h : a = 0x4015#16
  · exact ⟨false, by rw [h]; rfl⟩
  refine ⟨s.apu.frameIrq, ?_⟩
  unfold readAccess ppuRegRead readStatus raceNmi readOamData readData readPort0 readPort1
  rw [if_neg h]
  dsimp only
  repeat' split
  all_goals rfl

/-- A PPU register write changes the PPU and the memories on its bus (R197). -/
theorem ppuRegWrite_eq (r : BitVec 3) (v : Byte) (s : State) :
    ∃ ppu cart ciram, ppuRegWrite r v s = { s with ppu := ppu, cart := cart, ciram := ciram } := by
  have hppu (q : Ppu) : ∃ ppu cart ciram,
      ({ s with ppu := q } : State) = { s with ppu := ppu, cart := cart, ciram := ciram } := ⟨q, s.cart, s.ciram, rfl⟩
  unfold ppuRegWrite
  dsimp only
  iterate 7
    split
    · exact hppu _
  unfold writeData ppuWrite
  dsimp only
  split
  · exact hppu _
  split
  · split
    · exact ⟨_, _, s.ciram, rfl⟩
    split
    · exact ⟨_, _, s.ciram, rfl⟩
    · exact ⟨_, s.cart, _, rfl⟩
  · exact hppu _

/-- What a write can do to the APU and to a sample request: nothing, a write of $4015, or one of another register. -/
theorem writeAccess_apu (a : Word) (v : Byte) (s : State) :
    ((writeAccess a v s).apu = s.apu ∧ (writeAccess a v s).dmcDma = s.dmcDma) ∨
    ((writeAccess a v s).apu = s.apu.writeEnables v ∧ (writeAccess a v s).dmcDma = (s.dmcDma && v.getLsbD 4)) ∨
    (∃ n, (writeAccess a v s).apu = s.apu.write (isPut s) n v ∧ (writeAccess a v s).dmcDma = s.dmcDma) := by
  unfold writeAccess routeWrite
  split
  · exact .inl ⟨rfl, rfl⟩
  split
  · obtain ⟨_, _, _, h⟩ := ppuRegWrite_eq (a.setWidth 3) v s
    rw [h]
    exact .inl ⟨rfl, rfl⟩
  split
  · exact .inl ⟨rfl, rfl⟩
  split
  · exact .inr (.inl ⟨rfl, rfl⟩)
  split
  · unfold writeStrobe
    split <;> exact .inl ⟨rfl, rfl⟩
  split
  · exact .inr (.inr ⟨_, rfl, rfl⟩)
  split <;> exact .inl ⟨rfl, rfl⟩

/-! ## Length counters (R265, R268) -/

/-- A channel's halt bit. -/
def Apu.haltOfChannel (a : Apu) (ch : Fin 4) : Bool :=
  if ch = 0 then a.p1.halt else if ch = 1 then a.p2.halt else if ch = 2 then a.tri.control else a.noise.halt

theorem lengthOfChannel_setLength (ch c : Fin 4) (n : Nat) (a : Apu) :
    (a.setLength ch n).lengthOfChannel c = if c = ch then n else a.lengthOfChannel c := by
  fin_cases ch <;> fin_cases c <;> rfl

theorem lengthOfChannel_setHalt (ch c : Fin 4) (b : Bool) (a : Apu) :
    (a.setHalt ch b).lengthOfChannel c = a.lengthOfChannel c := by
  fin_cases ch <;> rfl

theorem lengthOfChannel_clockHalf (a : Apu) (c : Fin 4) :
    a.clockHalf.lengthOfChannel c = clockLength (a.haltOfChannel c) (a.lengthOfChannel c) := by
  fin_cases c <;> rfl

/-- A sequencer step clocks the length counters when it makes an H clock (R265). -/
theorem lengthOfChannel_runSeq (e : SeqStep) (a : Apu) (c : Fin 4) :
    (a.runSeq e).lengthOfChannel c =
      if e.half then clockLength (a.haltOfChannel c) (a.lengthOfChannel c) else a.lengthOfChannel c := by
  have hquarter : (if e.quarter then a.clockQuarter else a).lengthOfChannel c = a.lengthOfChannel c ∧
      (if e.quarter then a.clockQuarter else a).haltOfChannel c = a.haltOfChannel c := by
    split <;> exact ⟨rfl, rfl⟩
  unfold Apu.runSeq
  generalize (if e.quarter then a.clockQuarter else a) = b at hquarter ⊢
  obtain ⟨hlength, hhalt⟩ := hquarter
  rw [← hlength, ← hhalt]
  cases e.half
  · rfl
  · exact lengthOfChannel_clockHalf b c

theorem lengthOfChannel_timers (put : Bool) (a : Apu) (c : Fin 4) :
    (a.timers put).lengthOfChannel c = a.lengthOfChannel c := by
  have hpulse (p : Pulse) : p.clockTimer.length = p.length := by
    unfold Pulse.clockTimer
    split <;> rfl
  have htri : a.tri.clockTimer.length = a.tri.length := by
    unfold Triangle.clockTimer
    split <;> rfl
  have hnoise : a.noise.clockTimer.length = a.noise.length := by
    unfold Noise.clockTimer
    split <;> rfl
  unfold Apu.timers Apu.lengthOfChannel
  cases put <;> simp [hpulse, htri, hnoise]

theorem clockLength_le (halt : Bool) (n : Nat) : clockLength halt n ≤ n := by
  unfold clockLength
  split
  · exact Nat.sub_le n 1
  · exact Nat.le_refl n

/-! ## The sequencer's other fields (R265, R266) -/

theorem commit_rest (w : Option LateWrite) (a : Apu) :
    (a.commit w).noise.lfsr = a.noise.lfsr ∧ (a.commit w).fcResetIn = a.fcResetIn ∧ (a.commit w).late = a.late ∧
      (a.commit w).frameIrq = a.frameIrq ∧ (a.commit w).fcInhibit = a.fcInhibit := by
  unfold Apu.commit Apu.setLength Apu.setHalt
  repeat' split
  all_goals exact ⟨rfl, rfl, rfl, rfl, rfl⟩

theorem runSeq_rest (e : SeqStep) (a : Apu) :
    (a.runSeq e).noise.lfsr = a.noise.lfsr ∧ (a.runSeq e).fcResetIn = e.resetIn ∧ (a.runSeq e).late = a.late ∧
      (a.runSeq e).frameIrq = (a.frameIrq || (e.irq && !a.fcInhibit)) := by
  unfold Apu.runSeq
  dsimp only
  cases e.quarter <;> cases e.half <;> exact ⟨rfl, rfl, rfl, rfl⟩

/-- The sequencer's work of a cycle, but for the length counters. -/
theorem sequencer_rest (a : Apu) :
    a.sequencer.noise.lfsr = a.noise.lfsr ∧ a.sequencer.fcResetIn = a.seqStep.resetIn ∧ a.sequencer.late = none ∧
      a.sequencer.frameIrq = (a.frameIrq || (a.seqStep.irq && !a.fcInhibit)) := by
  unfold Apu.sequencer
  dsimp only
  split
  · obtain ⟨c1, c2, c3, c4, -⟩ := commit_rest _ (({ a with late := none } : Apu).runSeq a.seqStep)
    obtain ⟨r1, r2, r3, r4⟩ := runSeq_rest a.seqStep { a with late := none }
    exact ⟨c1.trans r1, c2.trans r2, c3.trans r3, c4.trans r4⟩
  · obtain ⟨c1, c2, c3, c4, c5⟩ := commit_rest a.late { a with late := none }
    obtain ⟨r1, r2, r3, r4⟩ := runSeq_rest a.seqStep (({ a with late := none } : Apu).commit a.late)
    exact ⟨r1.trans c1, r2, r3.trans c3, by rw [r4, c4, c5]⟩

/-! ## The APU stays in range (R176, R260, R268, R276, R278, R279) -/

/-- A length that is to be loaded is one of the table's (R268). -/
def LateFits (w : Option LateWrite) : Prop := ∀ ch n, w = some (.length ch n) → n ≤ 254

theorem lateFits_none : LateFits none := fun _ _ h => by cases h

theorem lateFits_halt (ch : Fin 4) (b : Bool) : LateFits (some (.halt ch b)) := fun _ _ h => by cases h

theorem lateFits_seqHold : LateFits (some .seqHold) := fun _ _ h => by cases h

theorem lateFits_length (ch : Fin 4) {n : Nat} (hn : n ≤ 254) : LateFits (some (.length ch n)) := fun _ _ h => by
  cases h
  exact hn

/-- The APU's ranges within a cycle: those of `ApuInv`, with a length that is to be loaded among them. -/
structure Apu.InRange (a : Apu) : Prop where
  lengths : ∀ ch, a.lengthOfChannel ch ≤ 254
  bits : 1 ≤ a.dmc.bits ∧ a.dmc.bits ≤ 8
  lfsr : a.noise.lfsr ≠ 0
  resetIn : ∀ n, a.fcResetIn = some n → 1 ≤ n ∧ n ≤ 4
  late : LateFits a.late

/-- A standing sample request has an empty buffer and a byte to fetch (R279). -/
def SampleWanted (s : State) : Prop := s.dmcDma = true → s.apu.dmc.buffer = none ∧ s.apu.dmc.remaining ≠ 0

theorem apuInv_iff (s : State) : ApuInv s ↔ s.apu.InRange ∧ s.apu.late = none ∧ SampleWanted s := by
  constructor
  · rintro ⟨h1, h2, h3, h4, hbits, hbits', hlate, hlfsr, hreset, hwanted⟩
    refine ⟨⟨fun ch => ?_, ⟨hbits, hbits'⟩, hlfsr, hreset, hlate ▸ lateFits_none⟩, hlate, hwanted⟩
    fin_cases ch
    exacts [h1, h2, h3, h4]
  · rintro ⟨⟨hlengths, hbits, hlfsr, hreset, -⟩, hlate, hwanted⟩
    exact ⟨hlengths 0, hlengths 1, hlengths 2, hlengths 3, hbits.1, hbits.2, hlate, hlfsr, hreset, hwanted⟩

theorem Apu.InRange.commit {a : Apu} (h : a.InRange) {w : Option LateWrite} (hw : LateFits w) :
    (a.commit w).InRange := by
  obtain ⟨hlfsr, hreset, hlate, -⟩ := commit_rest w a
  refine ⟨fun c => ?_, by rw [commit_dmc]; exact h.bits, by rw [hlfsr]; exact h.lfsr, by rw [hreset]; exact h.resetIn,
    by rw [hlate]; exact h.late⟩
  unfold Apu.commit
  split
  · rw [lengthOfChannel_setLength]
    split
    · exact hw _ _ rfl
    · exact h.lengths c
  · rw [lengthOfChannel_setHalt]
    exact h.lengths c
  · exact h.lengths c
  · exact h.lengths c

theorem Apu.InRange.runSeq {a : Apu} (h : a.InRange) {e : SeqStep} (he : ∀ n, e.resetIn = some n → 1 ≤ n ∧ n ≤ 4) :
    (a.runSeq e).InRange := by
  obtain ⟨hlfsr, hreset, hlate, -⟩ := runSeq_rest e a
  refine ⟨fun c => ?_, by rw [runSeq_dmc]; exact h.bits, by rw [hlfsr]; exact h.lfsr, by rw [hreset]; exact he,
    by rw [hlate]; exact h.late⟩
  rw [lengthOfChannel_runSeq]
  split
  · exact (clockLength_le _ _).trans (h.lengths c)
  · exact h.lengths c

/-- A pending reset counts down and is dropped when it falls due (R266). -/
theorem Apu.InRange.seqStep {a : Apu} (h : a.InRange) (n : Nat) (hn : a.seqStep.resetIn = some n) : 1 ≤ n ∧ n ≤ 4 := by
  unfold Apu.seqStep seqSchedule at hn
  dsimp only at hn
  split at hn
  · cases hn
  · next k hk =>
    have hk := h.resetIn k hk
    split at hn
    · cases hn
      exact hk
    split at hn
    · cases hn
    · cases hn
      omega

theorem Apu.InRange.sequencer {a : Apu} (h : a.InRange) : a.sequencer.InRange := by
  have hb : ({ a with late := none } : Apu).InRange := ⟨h.lengths, h.bits, h.lfsr, h.resetIn, lateFits_none⟩
  unfold Apu.sequencer
  dsimp only
  split
  · have kept (b : Bool) : LateFits (if b then a.late else none) := by
      cases b
      · exact lateFits_none
      · exact h.late
    exact (hb.runSeq h.seqStep).commit (kept _)
  · exact (hb.commit h.late).runSeq h.seqStep

/-- The LFSR's only way to 0 would be from 1, whose feedback is 1 (R276). -/
theorem clockLfsr_ne_zero (mode : Bool) {r : BitVec 15} (h : r ≠ 0) : clockLfsr mode r ≠ 0 := by
  intro hz
  unfold clockLfsr at hz
  dsimp only at hz
  obtain ⟨hshift, hfeedback⟩ := BitVec.or_eq_zero_iff.1 hz
  have hhigh (i : Nat) : r.getLsbD (1 + i) = false := by
    rw [← BitVec.getLsbD_ushiftRight, hshift, BitVec.getLsbD_zero]
  have hlow : r.getLsbD 0 = false := by
    rw [hhigh 0, hhigh 5, ite_self, Bool.xor_false] at hfeedback
    cases hbit : r.getLsbD 0
    · rfl
    · rw [hbit] at hfeedback
      exact absurd hfeedback (by decide)
  refine h (BitVec.eq_of_getLsbD_eq fun i _ => Eq.trans ?_ BitVec.getLsbD_zero.symm)
  cases i with
  | zero => exact hlow
  | succ i => rw [Nat.add_comm]; exact hhigh i

theorem noise_clockTimer_lfsr {n : Noise} (h : n.lfsr ≠ 0) : n.clockTimer.lfsr ≠ 0 := by
  unfold Noise.clockTimer
  split
  · exact clockLfsr_ne_zero _ h
  · exact h

theorem outputStep_bits {d : Dmc} (h : 1 ≤ d.bits ∧ d.bits ≤ 8) : 1 ≤ d.outputStep.bits ∧ d.outputStep.bits ≤ 8 := by
  unfold Dmc.outputStep
  dsimp only
  split
  · split <;> exact ⟨(by decide : 1 ≤ 8), Nat.le_refl 8⟩
  · dsimp only at *
    omega

theorem dmc_clockTimer_bits {d : Dmc} (h : 1 ≤ d.bits ∧ d.bits ≤ 8) : 1 ≤ d.clockTimer.bits ∧ d.clockTimer.bits ≤ 8 := by
  unfold Dmc.clockTimer
  split
  · exact outputStep_bits h
  · exact h

theorem outputStep_buffer {d : Dmc} (h : d.buffer = none) : d.outputStep.buffer = none := by
  unfold Dmc.outputStep
  dsimp only
  split
  · split
    · exact h
    · rfl
  · exact h

/-- An empty buffer stays empty: only a DMA fills it (R278, R279). -/
theorem dmc_clockTimer_buffer {d : Dmc} (h : d.buffer = none) : d.clockTimer.buffer = none := by
  unfold Dmc.clockTimer
  split
  · exact outputStep_buffer h
  · exact h

theorem Apu.InRange.timers {a : Apu} (h : a.InRange) (put : Bool) : (a.timers put).InRange where
  lengths c := by rw [lengthOfChannel_timers]; exact h.lengths c
  bits := by
    cases put
    · exact h.bits
    · exact dmc_clockTimer_bits h.bits
  lfsr := by
    cases put
    · exact h.lfsr
    · exact noise_clockTimer_lfsr h.lfsr
  resetIn := by cases put <;> exact h.resetIn
  late := by cases put <;> exact h.late

theorem timers_buffer (put : Bool) {a : Apu} (h : a.dmc.buffer = none) : (a.timers put).dmc.buffer = none := by
  cases put
  · exact h
  · exact dmc_clockTimer_buffer h

theorem timers_late (put : Bool) (a : Apu) : (a.timers put).late = a.late := by cases put <;> rfl

theorem dmcReader_apuInv {s : State} (h : ApuInv s) : ApuInv (dmcReader s) := by
  unfold dmcReader
  split
  · next hwanted =>
    rw [apuInv_iff] at h ⊢
    exact ⟨h.1, h.2.1, fun _ => hwanted⟩
  · exact h

theorem sampleCheck_apuInv {s : State} (h : ApuInv s) : ApuInv (sampleCheck s) := by
  unfold sampleCheck
  split
  · dsimp only
    split <;> exact h
  · exact h

theorem apuCycle_apuInv {s : State} (h : s.apu.InRange) (hw : SampleWanted s) : ApuInv (apuCycle s) := by
  refine sampleCheck_apuInv (dmcReader_apuInv ((apuInv_iff _).2 ⟨h.sequencer.timers _, ?_, fun hd => ?_⟩))
  · obtain ⟨-, -, hlate, -⟩ := sequencer_rest s.apu
    exact (timers_late _ _).trans hlate
  · obtain ⟨hbuffer, hremaining⟩ := hw hd
    refine ⟨timers_buffer _ (by rw [sequencer_dmc]; exact hbuffer), ?_⟩
    show ((s.apu.sequencer.timers (isPut s)).dmc.remaining) ≠ 0
    rw [timers_remaining, sequencer_dmc]
    exact hremaining

/-! ## Register writes (R262, R263, R266) -/

/-- What a register write but for $4015 and $4017 leaves alone: the length counters, the LFSR, the sample reader and a pending
reset. -/
def Apu.counters (a : Apu) : Apu :=
  { Apu.powerOn with
    p1 := { Pulse.powerOn with length := a.p1.length }
    p2 := { Pulse.powerOn with length := a.p2.length }
    tri := { Triangle.powerOn with length := a.tri.length }
    noise := { Noise.powerOn with length := a.noise.length, lfsr := a.noise.lfsr }
    dmc := { Dmc.powerOn with buffer := a.dmc.buffer, remaining := a.dmc.remaining, bits := a.dmc.bits }
    fcResetIn := a.fcResetIn }

/-- The lengths of the table (R268). -/
theorem lengthOf_le (v : Byte) : lengthOf v ≤ 254 := by
  revert v
  decide

/-- What register write but of $4015 and $4017 may have made of `a`. -/
structure Written (a b : Apu) : Prop where
  counters : b.counters = a.counters
  late : LateFits a.late → LateFits b.late

theorem loadLength_written (ch : Fin 4) (v : Byte) {a b : Apu} (hc : b.counters = a.counters)
    (hl : LateFits a.late → LateFits b.late) : Written a (b.loadLength ch v) := by
  unfold Apu.loadLength
  split
  · exact ⟨hc, fun _ => lateFits_length ch (lengthOf_le v)⟩
  · exact ⟨hc, hl⟩

/-- What holds of both branches holds of the choice. -/
theorem ite_holds {α : Type} {P : α → Prop} {c : Prop} [Decidable c] {t e : α} (ht : c → P t) (he : ¬c → P e) :
    P (if c then t else e) := by
  split
  · exact ht ‹_›
  · exact he ‹_›

theorem write_written (put : Bool) {n : BitVec 5} (h : n ≠ 0x17#5) (v : Byte) (a : Apu) : Written a (a.write put n v) := by
  unfold Apu.write
  refine ite_holds (fun _ => ⟨rfl, fun _ => lateFits_halt 0 _⟩) fun _ => ?_
  refine ite_holds (fun _ => ⟨rfl, id⟩) fun _ => ?_
  refine ite_holds (fun _ => ⟨rfl, id⟩) fun _ => ?_
  refine ite_holds (fun _ => loadLength_written 0 v rfl id) fun _ => ?_
  refine ite_holds (fun _ => ⟨rfl, fun _ => lateFits_halt 1 _⟩) fun _ => ?_
  refine ite_holds (fun _ => ⟨rfl, id⟩) fun _ => ?_
  refine ite_holds (fun _ => ⟨rfl, id⟩) fun _ => ?_
  refine ite_holds (fun _ => loadLength_written 1 v rfl id) fun _ => ?_
  refine ite_holds (fun _ => ⟨rfl, fun _ => lateFits_halt 2 _⟩) fun _ => ?_
  refine ite_holds (fun _ => ⟨rfl, id⟩) fun _ => ?_
  refine ite_holds (fun _ => loadLength_written 2 v rfl id) fun _ => ?_
  refine ite_holds (fun _ => ⟨rfl, fun _ => lateFits_halt 3 _⟩) fun _ => ?_
  refine ite_holds (fun _ => ⟨rfl, id⟩) fun _ => ?_
  refine ite_holds (fun _ => loadLength_written 3 v rfl id) fun _ => ?_
  refine ite_holds (fun _ => ⟨rfl, id⟩) fun _ => ?_
  refine ite_holds (fun _ => ⟨rfl, id⟩) fun _ => ?_
  refine ite_holds (fun _ => ⟨rfl, id⟩) fun _ => ?_
  refine ite_holds (fun _ => ⟨rfl, id⟩) fun _ => ?_
  rw [if_neg h]
  exact ⟨rfl, id⟩

theorem Apu.InRange.of_counters {a b : Apu} (h : a.InRange) (hc : b.counters = a.counters) (hl : LateFits b.late) :
    b.InRange where
  lengths c := by
    have e := congrArg (fun a : Apu => a.lengthOfChannel c) hc
    exact e.trans_le (h.lengths c)
  bits := by
    have e := congrArg (fun a : Apu => a.dmc.bits) hc
    exact ⟨h.bits.1.trans_eq e.symm, e.trans_le h.bits.2⟩
  lfsr := by
    have e := congrArg (fun a : Apu => a.noise.lfsr) hc
    exact fun hz => h.lfsr (e.symm.trans hz)
  resetIn n hn := by
    have e := congrArg (fun a : Apu => a.fcResetIn) hc
    exact h.resetIn n (e.symm.trans hn)
  late := hl

theorem Apu.InRange.write {a : Apu} (h : a.InRange) (put : Bool) (n : BitVec 5) (v : Byte) : (a.write put n v).InRange := by
  by_cases hn : n = 0x17#5
  · subst hn
    refine ⟨h.lengths, h.bits, h.lfsr, fun k hk => ?_, lateFits_seqHold⟩
    cases hk
    cases put <;> decide
  · obtain ⟨hc, hl⟩ := write_written put hn v a
    exact h.of_counters hc (hl h.late)

theorem write_sample (put : Bool) (n : BitVec 5) (v : Byte) (a : Apu) :
    (a.write put n v).dmc.buffer = a.dmc.buffer ∧ (a.write put n v).dmc.remaining = a.dmc.remaining := by
  by_cases hn : n = 0x17#5
  · subst hn
    exact ⟨rfl, rfl⟩
  · obtain ⟨hc, -⟩ := write_written put hn v a
    have e1 := congrArg (fun a : Apu => a.dmc.buffer) hc
    have e2 := congrArg (fun a : Apu => a.dmc.remaining) hc
    exact ⟨e1, e2⟩

theorem lengthOfChannel_writeEnables (v : Byte) (a : Apu) (ch : Fin 4) :
    (a.writeEnables v).lengthOfChannel ch = if v.getLsbD ch.val then a.lengthOfChannel ch else 0 := by
  fin_cases ch <;> rfl

theorem Apu.InRange.writeEnables {a : Apu} (h : a.InRange) (v : Byte) : (a.writeEnables v).InRange where
  lengths c := by
    rw [lengthOfChannel_writeEnables]
    split
    · exact h.lengths c
    · exact Nat.zero_le 254
  bits := by
    unfold Apu.writeEnables
    dsimp only
    split
    · exact h.bits
    split <;> exact h.bits
  lfsr := h.lfsr
  resetIn := h.resetIn
  late := h.late

/-- A disable of the DMC withdraws a standing request, and else the request's byte is still to be fetched (R278, log 12). -/
theorem SampleWanted.writeEnables {s : State} (h : SampleWanted s) (v : Byte) : SampleWanted (writeApuEnables v s) := by
  intro hd
  obtain ⟨hd, hv⟩ := Bool.and_eq_true_iff.1 hd
  obtain ⟨hbuffer, hremaining⟩ := h hd
  show (s.apu.writeEnables v).dmc.buffer = none ∧ (s.apu.writeEnables v).dmc.remaining ≠ 0
  unfold Apu.writeEnables
  dsimp only
  rw [hv, if_neg (by decide), if_neg hremaining]
  exact ⟨hbuffer, hremaining⟩

/-! ## Bus cycles keep the APU in range -/

/-- What `ApuInv` says but that no write is left to commit: it holds within a cycle too. -/
def ApuMid (s : State) : Prop := s.apu.InRange ∧ SampleWanted s

/-- Within a cycle the APU and a sample request are what they were. -/
theorem ApuMid.of_eq {s t : State} (h : ApuMid s) (ha : t.apu = s.apu) (hd : t.dmcDma = s.dmcDma) : ApuMid t := by
  unfold ApuMid SampleWanted
  rw [ha, hd]
  exact h

theorem ppuDots_apuMid (n : Nat) {s : State} (h : ApuMid s) : ApuMid (ppuDots n s) := by
  obtain ⟨_, _, _, hdots⟩ := ppuDots_eq n s
  rw [hdots]
  exact h

theorem readAccess_apuMid (a : Word) {s : State} (h : ApuMid s) : ApuMid (readAccess a s) := by
  obtain ⟨hrange, hwanted⟩ := h
  obtain ⟨irq, hapu⟩ := readAccess_apu a s
  obtain ⟨-, -, hdma, -⟩ := readAccess_time a s
  unfold ApuMid SampleWanted
  rw [hapu, hdma]
  exact ⟨⟨hrange.lengths, hrange.bits, hrange.lfsr, hrange.resetIn, hrange.late⟩, hwanted⟩

theorem writeAccess_apuMid (a : Word) (v : Byte) {s : State} (h : ApuMid s) : ApuMid (writeAccess a v s) := by
  obtain ⟨hapu, hdma⟩ | ⟨hapu, hdma⟩ | ⟨n, hapu, hdma⟩ := writeAccess_apu a v s
  · exact h.of_eq hapu hdma
  · exact ApuMid.of_eq (s := writeApuEnables v s) ⟨h.1.writeEnables v, h.2.writeEnables v⟩ hapu hdma
  · obtain ⟨hbuffer, hremaining⟩ := write_sample (isPut s) n v s.apu
    unfold ApuMid SampleWanted
    rw [hapu, hdma, hbuffer, hremaining]
    exact ⟨h.1.write _ n v, h.2⟩

theorem takeSample_inRange {a : Apu} (h : a.InRange) (b : Byte) (r : BitVec 12) : (a.takeSample b r).InRange := by
  unfold Apu.takeSample
  dsimp only
  repeat' split
  all_goals exact ⟨h.lengths, h.bits, h.lfsr, h.resetIn, h.late⟩

/-- The end of a DMC DMA clears the request (R279). -/
theorem dmcDone_apuMid (b : Byte) {s : State} (h : ApuMid s) : ApuMid (dmcDone b s) := by
  unfold dmcDone
  split
  · exact ⟨h.1, fun hd => by cases hd⟩
  · exact ⟨takeSample_inRange h.1 b _, fun hd => by cases hd⟩

theorem BusAccess.apuMid {access : State → State} (ha : BusAccess access) {s : State} (h : ApuMid s) : ApuMid (access s) := by
  cases ha with
  | read a => exact readAccess_apuMid a h
  | write a v => exact writeAccess_apuMid a v h
  | sample => exact dmcDone_apuMid _ (readAccess_apuMid _ h)

/-- The sequencer's step ends what a write of the cycle has left to it (log 13). -/
theorem BusAccess.cycle_apuInv {access : State → State} (ha : BusAccess access) (s : State) (h : ApuInv s) :
    ApuInv (cycle access s) := by
  obtain ⟨hrange, -, hwanted⟩ := (apuInv_iff s).1 h
  obtain ⟨hrange, hwanted⟩ := ppuDots_apuMid (3 - (access (ppuDots s.params.ppuPhase.val s)).params.ppuPhase.val)
    (ha.apuMid (ppuDots_apuMid s.params.ppuPhase.val ⟨hrange, hwanted⟩))
  exact apuCycle_apuInv hrange hwanted

/-- Settles O37: a cycle's accesses keep the ranges, its sequencer step commits what a write has left, and no other change of a
step touches the APU or a sample request. -/
theorem apuStaysInRange : Obligations.ApuStaysInRange := by
  unfold Obligations.ApuStaysInRange
  intro s t hs h
  refine step_invariant (P := ApuInv) BusAccess.cycle_apuInv (fun hi hu => ?_) (fun he hu => ?_) h hs
  · cases hi <;> exact hu
  · cases he
    exact hu

end Sys2Proof.Machine
end

section
/-!
PROOFS. The APU's registers and channels: the length index write (O49), $4015 (O50), the frame sequencer (O51), muted channels
(O52), the mixer's range (O53).
-/

namespace Sys2Proof.Machine

/-! ## The length index write (R262, R265, R268) -/

/-- Of what a cycle's write leaves to the sequencer, only a $4017 write bears on the schedule (R266). -/
theorem seqStep_length (a : Apu) (ch : Fin 4) (n : Nat) (h : a.late = none) :
    ({ a with late := some (.length ch n) } : Apu).seqStep = a.seqStep := by
  unfold Apu.seqStep
  rw [h]
  rfl

/-- A load of this cycle comes after its H clock, if it makes one, and is then dropped if the counter was not 0 (R268). -/
theorem sequencer_loads (a : Apu) (ch : Fin 4) (n : Nat) (h : a.late = some (.length ch n)) :
    a.sequencer.lengthOfChannel ch =
      if a.seqStep.half then
        (if a.lengthOfChannel ch = 0 then n else clockLength (a.haltOfChannel ch) (a.lengthOfChannel ch))
      else n := by
  have hclocked := lengthOfChannel_runSeq a.seqStep { a with late := none } ch
  unfold Apu.sequencer
  rw [h]
  dsimp only
  cases hhalf : a.seqStep.half
  · rw [if_neg (by decide), if_neg (by decide), lengthOfChannel_runSeq, hhalf]
    exact (lengthOfChannel_setLength ch ch n _).trans (if_pos rfl)
  · rw [if_pos rfl, if_pos rfl]
    rw [hhalf, if_pos rfl] at hclocked
    by_cases hzero : a.lengthOfChannel ch = 0
    · rw [if_pos hzero, if_pos (by rw [hzero]; rfl)]
      exact (lengthOfChannel_setLength ch ch n _).trans (if_pos rfl)
    · rw [if_neg hzero, if_neg (by simpa using hzero)]
      exact hclocked

theorem sequencer_only_clocks (a : Apu) (ch : Fin 4) (h : a.late = none) :
    a.sequencer.lengthOfChannel ch =
      if a.seqStep.half then clockLength (a.haltOfChannel ch) (a.lengthOfChannel ch) else a.lengthOfChannel ch := by
  have hclocked := lengthOfChannel_runSeq a.seqStep { a with late := none } ch
  unfold Apu.sequencer
  rw [h]
  dsimp only
  cases hhalf : a.seqStep.half
  all_goals
    rw [hhalf] at hclocked
    exact hclocked

/-- The counter of a channel after a length index write and the cycle's sequencer step. -/
def lengthAfterLoad (a : Apu) (ch : Fin 4) (v : Byte) : Nat :=
  let clocked := clockLength (a.haltOfChannel ch) (a.lengthOfChannel ch)
  if a.enabled ch then
    (if a.seqStep.half then (if a.lengthOfChannel ch = 0 then lengthOf v else clocked) else lengthOf v)
  else (if a.seqStep.half then clocked else a.lengthOfChannel ch)

theorem loadLength_sequencer (a : Apu) (ch : Fin 4) (v : Byte) (h : a.late = none) :
    (a.loadLength ch v).sequencer.lengthOfChannel ch = lengthAfterLoad a ch v := by
  unfold Apu.loadLength lengthAfterLoad
  dsimp only
  split
  · rw [sequencer_loads _ ch (lengthOf v) rfl, seqStep_length a ch _ h]
    rfl
  · exact sequencer_only_clocks a ch h

/-- LENGTH_TABLE, as the statement lists it (R268). -/
theorem lengthOf_eq (v : Byte) :
    lengthOf v = [10, 254, 20, 2, 40, 4, 80, 6, 160, 8, 60, 10, 14, 12, 26, 14,
      12, 16, 24, 18, 48, 20, 96, 22, 192, 24, 72, 26, 16, 28, 32, 30].getD (v.toNat / 8) 0 := by
  revert v
  decide

theorem clockLength_eq (halt : Bool) (n : Nat) : clockLength halt n = if 0 < n ∧ halt = false then n - 1 else n := by
  unfold clockLength
  cases halt <;> simp

/-- Settles O49: each of the four registers is a change of other fields and then a length load. -/
theorem lengthCounterLoad : Obligations.LengthCounterLoad := by
  unfold Obligations.LengthCounterLoad
  intro a put v ch table register old halted clocked hlate
  have hload : ((a.write put register v).sequencer).lengthOfChannel ch = lengthAfterLoad a ch v := by
    fin_cases ch
    · exact loadLength_sequencer { a with p1 := a.p1.writeHigh v } 0 v hlate
    · exact loadLength_sequencer { a with p2 := a.p2.writeHigh v } 1 v hlate
    · exact loadLength_sequencer
        { a with tri := { a.tri with timerPeriod := periodHigh v a.tri.timerPeriod, linReload := true } } 2 v hlate
    · exact loadLength_sequencer { a with noise := { a.noise with env := { a.noise.env with start := true } } } 3 v hlate
  have hhalt : a.haltOfChannel ch = halted := by fin_cases ch <;> rfl
  rw [hload, lengthAfterLoad, lengthOf_eq, clockLength_eq, hhalt]

/-! ## $4015 (R263, R264) -/

/-- Eight flags laid out bit by bit. -/
theorem flags_eq (b7 b6 b5 b4 b3 b2 b1 b0 : Bool) :
    (flag 8 b7 <<< 7) ||| (flag 8 b6 <<< 6) ||| (flag 8 b5 <<< 5) ||| (flag 8 b4 <<< 4) ||| (flag 8 b3 <<< 3)
      ||| (flag 8 b2 <<< 2) ||| (flag 8 b1 <<< 1) ||| flag 8 b0 = BitVec.ofBoolListBE [b7, b6, b5, b4, b3, b2, b1, b0] := by
  revert b7 b6 b5 b4 b3 b2 b1 b0
  decide

theorem bus_bit5 (bus : Byte) : bus &&& 0x20#8 = flag 8 (bus.getLsbD 5) <<< 5 := by
  revert bus
  decide

theorem timers_frameIrq (put : Bool) (a : Apu) : (a.timers put).frameIrq = a.frameIrq := by cases put <;> rfl

theorem apuCycle_frameIrq (s : State) :
    (apuCycle s).apu.frameIrq = (s.apu.frameIrq || (s.apu.seqStep.irq && !s.apu.fcInhibit)) := by
  obtain ⟨-, -, -, hirq⟩ := sequencer_rest s.apu
  have hrest (t : State) : (sampleCheck (dmcReader t)).apu.frameIrq = t.apu.frameIrq := by
    unfold sampleCheck dmcReader
    dsimp only
    repeat' split
    all_goals rfl
  rw [apuCycle, hrest, ← hirq]
  exact timers_frameIrq _ _

theorem writeEnables_dmc (v : Byte) (a : Apu) :
    (a.writeEnables v).dmc =
      if v.getLsbD 4 then
        (if a.dmc.remaining = 0 then { a.dmc with address := a.dmc.startAddr, remaining := a.dmc.startLen } else a.dmc)
      else { a.dmc with remaining := 0 } := by
  unfold Apu.writeEnables
  cases v.getLsbD 4 <;> rfl

/-- A $4015 write is that of its five low bits (R263). -/
theorem writeEnables_low (v : Byte) (a : Apu) : a.writeEnables v = a.writeEnables (v &&& 0x1F) := by
  have hbit (i : Nat) (h : i < 5) : (v &&& 0x1F).getLsbD i = v.getLsbD i := by
    have hmask : ∀ i < 5, (0x1F : Byte).getLsbD i = true := by decide
    rw [BitVec.getLsbD_and, hmask i h, Bool.and_true]
  unfold Apu.writeEnables
  rw [hbit 0 (by decide), hbit 1 (by decide), hbit 2 (by decide), hbit 3 (by decide), hbit 4 (by decide)]

/-- Settles O50: the write is `writeEnables`, the read `statusByte`, and the sequencer's step comes after the read. -/
theorem statusRegister4015 : Obligations.StatusRegister4015 := by
  unfold Obligations.StatusRegister4015
  refine ⟨fun v s => ?write, fun s => ⟨?byte, rfl, ?survives⟩⟩
  case write =>
    have hwrite (w : Byte) : (writeAccess 0x4015 w s).apu = s.apu.writeEnables w := rfl
    dsimp only
    rw [hwrite, hwrite, ← writeEnables_low]
    refine ⟨rfl, rfl, rfl, rfl, lengthOfChannel_writeEnables v s.apu, rfl, rfl, ?_, ?_, rfl⟩
    · rw [writeEnables_dmc, apply_ite Dmc.remaining, apply_ite Dmc.remaining]
    · rw [writeEnables_dmc, apply_ite Dmc.address, apply_ite Dmc.address, ite_and]
  case byte =>
    show s.apu.statusByte s.cpuBus = _
    rw [Apu.statusByte, bus_bit5, flags_eq]
  case survives =>
    obtain ⟨ppu, draws, mmc3, hdots⟩ := ppuDots_eq s.params.ppuPhase.val s
    show (apuCycle (ppuDots _ (readAccess 0x4015 (ppuDots s.params.ppuPhase.val s)))).apu.frameIrq = _
    rw [apuCycle_frameIrq, ppuDots_apu, hdots]
    rfl

/-! ## The frame sequencer (R261, R265, R266) -/

/-- The schedule of R265, count by count. -/
theorem seqSchedule_law (fiveStep : Bool) (n : Nat) (pending : Option Nat) :
    ((seqSchedule fiveStep n pending).half = true ↔ n = 14913 ∨ n = (if fiveStep then 37281 else 29829)) ∧
      ((seqSchedule fiveStep n pending).quarter = true ↔
        n = 7457 ∨ n = 14913 ∨ n = 22371 ∨ n = (if fiveStep then 37281 else 29829)) ∧
      ((seqSchedule fiveStep n pending).irq = true ↔ fiveStep = false ∧ (n = 29828 ∨ n = 29829 ∨ n = 29830)) ∧
      (seqSchedule fiveStep n pending).count = (if n = (if fiveStep then 37282 else 29830) then 0 else n) ∧
      (seqSchedule fiveStep n pending).resetIn = pending := by
  unfold seqSchedule
  cases fiveStep
  · simp
    omega
  · simp
    omega

/-- Settles O51: without a reset due the step is the schedule's, and a $4017 write holds its own reset back for the cycle. -/
theorem frameSequencerSchedule : Obligations.FrameSequencerSchedule := by
  unfold Obligations.FrameSequencerSchedule
  intro a hlate n b
  refine ⟨fun hreset => ?scheduled, fun hreset => ?due, fun put v => ?write⟩
  case scheduled =>
    have hb : b = seqSchedule a.fcMode n (a.fcResetIn.map (· - 1)) := by
      show a.seqStep = _
      unfold Apu.seqStep
      rw [hlate]
      obtain hnone | ⟨k, hk, hlt⟩ := hreset
      · rw [hnone]
        rfl
      · rw [hk]
        show (if none = some LateWrite.seqHold then _ else if k ≤ 1 then _ else _) = _
        rw [if_neg (by simp), if_neg (Nat.not_le.2 hlt)]
        rfl
    rw [hb]
    exact seqSchedule_law a.fcMode n _
  case due =>
    have hb : b = { quarter := a.fcMode, half := a.fcMode, irq := false, count := 0, resetIn := none } := by
      show a.seqStep = _
      unfold Apu.seqStep
      rw [hlate, hreset]
      rfl
    rw [hb]
    exact ⟨rfl, rfl, rfl, rfl, rfl⟩
  case write =>
    obtain ⟨-, hreset, -⟩ := sequencer_rest (a.write put 0x17 v)
    refine ⟨hreset, rfl, rfl, fun hv => ?_⟩
    show (a.frameIrq && !v.getLsbD 6) = false
    rw [hv, Bool.not_true, Bool.and_false]

/-! ## Muted channels (R270, R272, R277) -/

/-- A target that does not mute fits the period's eleven bits (R270). -/
theorem target_lt {ones : Bool} {p : Pulse} (h : p.muted ones = false) : p.target ones < 2048 := by
  have hperiod := p.timerPeriod.isLt
  unfold Pulse.muted at h
  cases hneg : p.sweepNeg
  · rw [hneg] at h
    simp at h
    omega
  · unfold Pulse.target
    dsimp only
    rw [hneg, if_pos rfl]
    exact ((Nat.sub_le _ _).trans (Nat.sub_le _ _)).trans_lt hperiod

/-- Settles O52: the sweep changes the period only when the channel is not muted, and then to the target. -/
theorem mutedChannelsAreSilent : Obligations.MutedChannelsAreSilent := by
  unfold Obligations.MutedChannelsAreSilent
  intro ones p
  refine ⟨fun hmuted => ⟨?_, ?_⟩, fun hchanged => ?_, fun hlength => ?_, fun n hlength => ?_⟩
  · unfold Pulse.clockHalf
    dsimp only
    rw [hmuted, if_neg (by simp)]
  · unfold Pulse.output
    rw [hmuted, Bool.or_true, if_pos rfl]
  · unfold Pulse.clockHalf at hchanged ⊢
    dsimp only at hchanged ⊢
    split at hchanged
    · next hsweep =>
      rw [if_pos hsweep, BitVec.toNat_ofNat]
      simp only [Bool.and_eq_true, Bool.not_eq_true', decide_eq_true_eq] at hsweep
      obtain ⟨⟨⟨hdiv, henabled⟩, -⟩, hmuted⟩ := hsweep
      exact ⟨Nat.mod_eq_of_lt (target_lt hmuted), henabled, hdiv⟩
    · exact absurd rfl hchanged
  · unfold Pulse.output
    rw [if_pos (by simp [hlength])]
  · unfold Noise.output
    rw [if_pos (by simp [hlength])]

/-! ## The mixer (R269, R272, R275, R277, R281) -/

theorem envelope_output_le (constVol : Bool) (vol : BitVec 4) (e : Envelope) : e.output constVol vol ≤ 15 := by
  have hvol := vol.isLt
  have hdecay := e.decay.isLt
  unfold Envelope.output
  split <;> omega

theorem pulse_output_le (ones : Bool) (p : Pulse) : p.output ones ≤ 15 := by
  unfold Pulse.output
  split
  · exact Nat.zero_le 15
  · exact envelope_output_le _ _ _

theorem noise_output_le (n : Noise) : n.output ≤ 15 := by
  unfold Noise.output
  split
  · exact Nat.zero_le 15
  · exact envelope_output_le _ _ _

theorem triangle_output_le (t : Triangle) : t.output ≤ 15 := by
  have hseq := t.seq.isLt
  unfold Triangle.output
  split <;> omega

/-- A mixer stage `c / (1 / x + 100)` grows with x, and is 0 or more. -/
theorem stage_le {c x m : ℚ} (hc : 0 ≤ c) (hx : 0 < x) (hm : x ≤ m) :
    0 ≤ c / (1 / x + 100) ∧ c / (1 / x + 100) ≤ c / (1 / m + 100) := by
  have hm0 : 0 < m := hx.trans_le hm
  refine ⟨by positivity, ?_⟩
  gcongr

theorem pulse_stage {n : Nat} (h : n ≤ 30) :
    let out : ℚ := if n = 0 then 0 else (2397 / 25) / (8128 / (n : ℚ) + 100)
    0 ≤ out ∧ out ≤ 2584833 / 10000000 := by
  intro out
  by_cases hn : n = 0
  · simp only [out, if_pos hn]
    norm_num
  · have hpos : (0 : ℚ) < n := by exact_mod_cast Nat.pos_of_ne_zero hn
    have hle : (n : ℚ) ≤ 30 := by exact_mod_cast h
    have hstage := stage_le (c := 2397 / 25) (x := n / 8128) (m := 30 / 8128) (by norm_num) (by positivity) (by gcongr)
    rw [one_div_div] at hstage
    simp only [out, if_neg hn]
    exact ⟨hstage.1, hstage.2.trans (by norm_num)⟩

theorem tnd_stage {t n d : Nat} (ht : t ≤ 15) (hn : n ≤ 15) (hd : d ≤ 127) :
    let out : ℚ := if t = 0 ∧ n = 0 ∧ d = 0 then 0
      else (15979 / 100) / (1 / ((t : ℚ) / 8227 + (n : ℚ) / 12241 + (d : ℚ) / 22638) + 100)
    0 ≤ out ∧ out ≤ 7415166 / 10000000 := by
  intro out
  by_cases hzero : t = 0 ∧ n = 0 ∧ d = 0
  · simp only [out, if_pos hzero]
    norm_num
  · have ht' : (t : ℚ) ≤ 15 := by exact_mod_cast ht
    have hn' : (n : ℚ) ≤ 15 := by exact_mod_cast hn
    have hd' : (d : ℚ) ≤ 127 := by exact_mod_cast hd
    have hpos : (0 : ℚ) < (t : ℚ) / 8227 + (n : ℚ) / 12241 + (d : ℚ) / 22638 := by
      have hsome : (1 : ℚ) ≤ t + n + d := by
        have : 1 ≤ t + n + d := by omega
        exact_mod_cast this
      have ht0 : (0 : ℚ) ≤ t := Nat.cast_nonneg t
      have hn0 : (0 : ℚ) ≤ n := Nat.cast_nonneg n
      have hd0 : (0 : ℚ) ≤ d := Nat.cast_nonneg d
      linarith
    have hstage := stage_le (c := 15979 / 100) (m := 15 / 8227 + 15 / 12241 + 127 / 22638) (by norm_num) hpos (by gcongr)
    simp only [out, if_neg hzero]
    exact ⟨hstage.1, hstage.2.trans (by norm_num)⟩

/-- Settles O53: each of the mixer's two stages grows with its inputs, and at their greatest the two add up to less than 1. -/
theorem samplesLieInUnitRange : Obligations.SamplesLieInUnitRange := by
  unfold Obligations.SamplesLieInUnitRange
  intro a
  have hp1 := pulse_output_le true a.p1
  have hp2 := pulse_output_le false a.p2
  obtain ⟨hpulse0, hpulse⟩ := pulse_stage (n := a.p1.output true + a.p2.output false) (by omega)
  obtain ⟨htnd0, htnd⟩ := tnd_stage (triangle_output_le a.tri) (noise_output_le a.noise)
    (Nat.le_of_lt_succ a.dmc.level.isLt)
  unfold Apu.sample mix
  dsimp only
  constructor <;> linarith

end Sys2Proof.Machine
end

section
/-!
PROOFS. The PPU's registers as the CPU writes and reads them, at every mirror: PPUSCROLL and PPUADDR (O41), PPUCTRL, PPUMASK,
PPUSTATUS and OAMADDR (O42), the PPUSTATUS read (O43), OAMDATA (O44), PPUDATA (O45). An access of $2000-$3FFF is one of register
a mod 8 (`writeAccess_register`, `readAccess_register`).
-/

namespace Sys2Proof.Machine

/-! ## The mirrors (R196, R224) -/

theorem setWidth3_eq {a : Word} {r : BitVec 3} (h : a.toNat % 8 = r.toNat) : a.setWidth 3 = r := by
  apply BitVec.eq_of_toNat_eq
  rw [BitVec.toNat_setWidth]
  exact h

section Mirror

variable {a : Word} (hlo : 0x2000 ≤ a.toNat) (hhi : a.toNat < 0x4000)
include hlo hhi

theorem writeAccess_register {r : BitVec 3} (h : a.toNat % 8 = r.toNat) (v : Byte) (s : State) :
    writeAccess a v s = drive v (ppuRegWrite r v s) := by
  unfold writeAccess routeWrite
  rw [if_neg (by omega), if_pos hhi, setWidth3_eq h]

theorem readAccess_register {r : BitVec 3} (h : a.toNat % 8 = r.toNat) (s : State) :
    readAccess a s = ppuRegRead r s := by
  unfold readAccess
  rw [if_neg (by omega), if_pos hhi, setWidth3_eq h]

theorem writeAccess_register_ppu {r : BitVec 3} (h : a.toNat % 8 = r.toNat) (v : Byte) (s : State) :
    (writeAccess a v s).ppu = (ppuRegWrite r v s).ppu := by
  rw [writeAccess_register hlo hhi h]
  rfl

end Mirror

/-! ## Fields of t (R225, R230, R231) -/

theorem scrollFirst_fields (t : BitVec 15) (v : Byte) :
    (t &&& ~~~0x001F#15) ||| (v >>> 3).setWidth 15 = t.extractLsb' 5 10 ++ v.extractLsb' 3 5 := by
  refine BitVec.eq_of_getLsbD_eq fun i hi => ?_
  rw [BitVec.getLsbD_append]
  interval_cases i <;> simp

theorem scrollSecond_fields (t : BitVec 15) (v : Byte) :
    (t &&& ~~~0x73E0#15) ||| ((v &&& 7#8).setWidth 15 <<< 12) ||| ((v &&& 0xF8#8).setWidth 15 <<< 2) =
      v.extractLsb' 0 3 ++ t.extractLsb' 10 2 ++ v.extractLsb' 3 5 ++ t.extractLsb' 0 5 := by
  refine BitVec.eq_of_getLsbD_eq fun i hi => ?_
  simp only [BitVec.getLsbD_append]
  interval_cases i <;> simp

theorem addrFirst_fields (t : BitVec 15) (v : Byte) :
    (t &&& 0x00FF#15) ||| ((v &&& 0x3F#8).setWidth 15 <<< 8) = 0#1 ++ v.extractLsb' 0 6 ++ t.extractLsb' 0 8 := by
  refine BitVec.eq_of_getLsbD_eq fun i hi => ?_
  simp only [BitVec.getLsbD_append]
  interval_cases i <;> simp

theorem addrSecond_fields (t : BitVec 15) (v : Byte) :
    (t &&& 0x7F00#15) ||| v.setWidth 15 = t.extractLsb' 8 7 ++ v := by
  refine BitVec.eq_of_getLsbD_eq fun i hi => ?_
  rw [BitVec.getLsbD_append]
  interval_cases i <;> simp

theorem ctrl_fields (t : BitVec 15) (v : Byte) :
    (t &&& ~~~0x0C00#15) ||| ((v &&& 3#8).setWidth 15 <<< 10) =
      t.extractLsb' 12 3 ++ v.extractLsb' 0 2 ++ t.extractLsb' 0 10 := by
  refine BitVec.eq_of_getLsbD_eq fun i hi => ?_
  simp only [BitVec.getLsbD_append]
  interval_cases i <;> simp

theorem fineX_field (v : Byte) : v.setWidth 3 = v.extractLsb' 0 3 := by
  rw [BitVec.setWidth_eq_extractLsb' (by decide)]

/-! ## PPUSCROLL, PPUADDR, PPUCTRL and PPUMASK (R225, R226, R228, R230, R231, R236) -/

section Registers

variable (v : Byte) (p : Ppu)

theorem writeScroll_first (hwarm : p.warmup = false) (hw : p.w = false) :
    p.writeScroll v =
      { p with t := p.t.extractLsb' 5 10 ++ v.extractLsb' 3 5, fineX := v.extractLsb' 0 3, w := true } := by
  rw [Ppu.writeScroll, hwarm, hw, ← scrollFirst_fields, ← fineX_field]
  rfl

theorem writeScroll_second (hwarm : p.warmup = false) (hw : p.w = true) :
    p.writeScroll v =
      { p with
        t := v.extractLsb' 0 3 ++ p.t.extractLsb' 10 2 ++ v.extractLsb' 3 5 ++ p.t.extractLsb' 0 5, w := false } := by
  rw [Ppu.writeScroll, hwarm, hw, ← scrollSecond_fields]
  rfl

theorem writeAddr_first (hwarm : p.warmup = false) (hw : p.w = false) :
    p.writeAddr v = { p with t := 0#1 ++ v.extractLsb' 0 6 ++ p.t.extractLsb' 0 8, w := true } := by
  rw [Ppu.writeAddr, hwarm, hw, ← addrFirst_fields]
  rfl

theorem writeAddr_second (hwarm : p.warmup = false) (hw : p.w = true) :
    p.writeAddr v = { p with t := p.t.extractLsb' 8 7 ++ v, v := p.t.extractLsb' 8 7 ++ v, w := false } := by
  rw [Ppu.writeAddr, hwarm, hw, ← addrSecond_fields]
  rfl

theorem writeCtrl_fields (hwarm : p.warmup = false) :
    p.writeCtrl v =
      { p with ctrl := v, t := p.t.extractLsb' 12 3 ++ v.extractLsb' 0 2 ++ p.t.extractLsb' 0 10 } := by
  rw [Ppu.writeCtrl, hwarm, ← ctrl_fields]
  rfl

end Registers

/-- Settles O41: a write of register 5 or 6 sets the latch and is then `writeScroll` or `writeAddr`. -/
theorem scrollAndAddressWrites : Obligations.ScrollAndAddressWrites := by
  unfold Obligations.ScrollAndAddressWrites
  intro a v s hlo hhi p q
  have scroll (h : a.toNat % 8 = 5) : q = Ppu.writeScroll v { p with ioLatch := v } :=
    writeAccess_register_ppu hlo hhi (r := 5#3) h v s
  have addr (h : a.toNat % 8 = 6) : q = Ppu.writeAddr v { p with ioLatch := v } :=
    writeAccess_register_ppu hlo hhi (r := 6#3) h v s
  refine ⟨fun hwarm h => ?warmup, fun hwarm h hw => ?_, fun hwarm h hw => ?_, fun hwarm h hw => ?_, fun hwarm h hw => ?_⟩
  case warmup =>
    obtain h | h := h
    · exact (scroll h).trans (if_pos hwarm)
    · exact (addr h).trans (if_pos hwarm)
  · exact (scroll h).trans (writeScroll_first v _ hwarm hw)
  · exact (scroll h).trans (writeScroll_second v _ hwarm hw)
  · exact (addr h).trans (writeAddr_first v _ hwarm hw)
  · exact (addr h).trans (writeAddr_second v _ hwarm hw)

/-- Settles O42: a write of register 0 to 3 sets the latch and is then that register's. -/
theorem controlAndMaskWrites : Obligations.ControlAndMaskWrites := by
  unfold Obligations.ControlAndMaskWrites
  intro a v s hlo hhi p q
  have ctrl (h : a.toNat % 8 = 0) : q = Ppu.writeCtrl v { p with ioLatch := v } :=
    writeAccess_register_ppu hlo hhi (r := 0#3) h v s
  have mask (h : a.toNat % 8 = 1) : q = Ppu.writeMask v { p with ioLatch := v } :=
    writeAccess_register_ppu hlo hhi (r := 1#3) h v s
  have status (h : a.toNat % 8 = 2) : q = { p with ioLatch := v } := writeAccess_register_ppu hlo hhi (r := 2#3) h v s
  have oamAddr (h : a.toNat % 8 = 3) : q = { p with ioLatch := v, oamAddr := v } :=
    writeAccess_register_ppu hlo hhi (r := 3#3) h v s
  refine ⟨fun hwarm h => ?warmup, fun hwarm h => ?_, fun hwarm h => ?_, status, oamAddr⟩
  case warmup =>
    obtain h | h | h : a.toNat % 8 = 0 ∨ a.toNat % 8 = 1 ∨ a.toNat % 8 = 2 := by omega
    · exact (ctrl h).trans (if_pos hwarm)
    · exact (mask h).trans (if_pos hwarm)
    · exact status h
  · exact (ctrl h).trans (writeCtrl_fields v _ hwarm)
  · exact (mask h).trans (if_neg (by simp [hwarm]))

/-! ## PPUSTATUS (R227, R235, R240) -/

theorem statusFlags_fields (b2 b1 b0 : Bool) :
    (flag 8 b2 <<< 7) ||| (flag 8 b1 <<< 6) ||| (flag 8 b0 <<< 5) = BitVec.ofBoolListBE [b2, b1, b0] ++ 0#5 := by
  revert b2 b1 b0
  decide

theorem latch_fields (latch : Byte) : latch &&& 0x1F#8 = 0#3 ++ latch.extractLsb' 0 5 := by
  refine BitVec.eq_of_getLsbD_eq fun i hi => ?_
  rw [BitVec.getLsbD_append]
  interval_cases i <;> simp

theorem statusByte_fields (p : Ppu) (vblank : Bool) :
    p.statusByte vblank =
      BitVec.ofBoolListBE [vblank, p.sprite0Hit, p.spriteOverflow] ++ p.ioLatch.extractLsb' 0 5 := by
  rw [Ppu.statusByte, statusFlags_fields, latch_fields]
  exact BitVec.or_append.trans (congrArg₂ _ BitVec.or_zero BitVec.zero_or)

/-- A PPUSTATUS read, inside and outside the race window. -/
theorem readStatus_law (s : State) :
    ∃ vblank : Bool, (readStatus s).cpuBus = s.ppu.statusByte vblank ∧
      (s.ppu.inRaceWindow = false → vblank = s.ppu.vblankFlag) ∧
      (readStatus s).ppu.vblankFlag = false ∧ (readStatus s).ppu.w = false ∧
      (readStatus s).ppu.ioLatch = s.ppu.statusByte vblank ∧
      (s.ppu.inRaceWindow = true → (readStatus s).ppu.vblSuppress = true) := by
  unfold readStatus
  split
  · next hrace =>
    refine ⟨Config.raceBit s.draws, ?_⟩
    unfold raceNmi
    dsimp only
    repeat' split
    all_goals exact ⟨rfl, fun h => by simp [hrace] at h, rfl, rfl, rfl, fun _ => rfl⟩
  · next hrace => exact ⟨s.ppu.vblankFlag, rfl, fun _ => rfl, rfl, rfl, rfl, fun h => absurd h hrace⟩

/-- Settles O43: the read of register 2, in and out of the race window. -/
theorem statusRead : Obligations.StatusRead := by
  unfold Obligations.StatusRead
  intro a s hlo hhi h t
  have ht : t = readStatus s := readAccess_register hlo hhi (r := 2#3) h s
  obtain ⟨vblank, hbus, hflag, hclear, hw, hlatch, hsuppress⟩ := readStatus_law s
  have hrace : s.ppu.inRaceWindow = true ↔ s.ppu.scanline = 241 ∧ s.ppu.dot ≤ 3 := by simp [Ppu.inRaceWindow]
  rw [ht]
  exact ⟨⟨vblank, hbus.trans (statusByte_fields _ _), fun hn => hflag (Bool.eq_false_iff.2 (mt hrace.1 hn))⟩, hclear, hw,
    hlatch.trans hbus.symm, fun hr => hsuppress (hrace.2 hr)⟩

/-! ## OAMDATA (R229) -/

/-- A sprite's third byte, by its address in OAM. -/
theorem and_three_eq_two (b : Byte) : b &&& 3#8 = 2#8 ↔ b.toNat % 4 = 2 := by
  revert b
  decide

theorem oamDataByte_eq (p : Ppu) :
    p.oamDataByte =
      (if p.oamAddr.toNat % 4 = 2 then p.oam[p.oamAddr.toFin] &&& 0xE3 else p.oam[p.oamAddr.toFin]) := by
  unfold Ppu.oamDataByte
  simp only [and_three_eq_two]
  rfl

theorem writeOamData_off (v : Byte) {p : Ppu} (h : p.rendering = false) :
    p.writeOamData v = { p with oam := p.oam.set p.oamAddr.toNat v p.oamAddr.isLt, oamAddr := p.oamAddr + 1 } :=
  if_neg (Bool.eq_false_iff.1 h)

/-- A store at OAMADDR changes no other byte of OAM. -/
theorem oam_set (p : Ppu) (v k : Byte) :
    (p.oam.set p.oamAddr.toNat v p.oamAddr.isLt)[k.toFin] = if k = p.oamAddr then v else p.oam[k.toFin] := by
  show (p.oam.set p.oamAddr.toNat v p.oamAddr.isLt)[k.toNat]'k.isLt = _
  rw [Vector.getElem_set]
  simp only [← BitVec.toNat_inj, eq_comm]
  rfl

/-- Settles O44: the write of register 4 is `writeOamData`, its read `readOamData`. -/
theorem oamDataAccess : Obligations.OamDataAccess := by
  unfold Obligations.OamDataAccess
  intro a v s hlo hhi h
  have hwrite : (writeAccess a v s).ppu = Ppu.writeOamData v { s.ppu with ioLatch := v } :=
    writeAccess_register_ppu hlo hhi (r := 4#3) h v s
  have hread : readAccess a s = readOamData s := readAccess_register hlo hhi (r := 4#3) h s
  rw [hwrite, hread]
  refine ⟨fun hrend => ?off, fun hrend => ?on⟩
  case off =>
    rw [writeOamData_off v (p := { s.ppu with ioLatch := v }) hrend, readOamData, hrend, ← oamDataByte_eq]
    exact ⟨rfl, oam_set s.ppu v, rfl, rfl⟩
  case on =>
    have hstep : Ppu.writeOamData v { s.ppu with ioLatch := v } =
        { s.ppu with ioLatch := v, oamAddr := s.ppu.oamAddr + 4 } := if_pos hrend
    rw [hstep]
    exact ⟨rfl, rfl⟩

/-! ## PPUDATA (R222, R232 to R234) -/

/-- The palette cell of an address: its low five bits, the four mirrored cells folded (R222). -/
theorem paletteEntry_val (a : PpuAddr) :
    (paletteEntry a).val = if a.toNat % 32 ∈ [16, 20, 24, 28] then a.toNat % 16 else a.toNat % 32 := by
  have hcell (i : BitVec 5) : ((if i &&& 0x13#5 = 0x10#5 then i &&& 0x0F#5 else i).toFin).val =
      if i.toNat ∈ [16, 20, 24, 28] then i.toNat % 16 else i.toNat := by
    revert i
    decide
  have hlow : (a.setWidth 5).toNat = a.toNat % 32 := BitVec.toNat_setWidth ..
  have h := hcell (a.setWidth 5)
  rw [hlow, Nat.mod_mod_of_dvd _ (by decide)] at h
  exact h

theorem dataAddr_eq (v : BitVec 15) : BitVec.ofNat 14 (v.toNat % 16384) = v.setWidth 14 := by
  apply BitVec.eq_of_toNat_eq
  rw [BitVec.toNat_ofNat, BitVec.toNat_setWidth, Nat.mod_mod]

/-- The nametable address under a palette address (R233). -/
theorem underPalette_eq {a : PpuAddr} (h : 0x3F00 ≤ a.toNat) : BitVec.ofNat 14 (a.toNat - 0x1000) = a - 0x1000#14 := by
  apply BitVec.eq_of_toNat_eq
  have ha := a.isLt
  rw [BitVec.toNat_ofNat, BitVec.toNat_sub_of_le (by rw [BitVec.le_def]; exact (by decide : 4096 ≤ 0x3F00).trans h)]
  exact Nat.mod_eq_of_lt (by omega)

/-- A palette byte under the latch's top bits (R233). -/
theorem paletteByte_fields (c : BitVec 6) (latch : Byte) :
    c.setWidth 8 ||| (latch &&& 0xC0#8) = latch.extractLsb' 6 2 ++ c := by
  refine BitVec.eq_of_getLsbD_eq fun i hi => ?_
  rw [BitVec.getLsbD_append]
  interval_cases i <;> simp

section Store

variable {a : PpuAddr} (d : Byte) {s : State}

theorem ppuWrite_pattern (h : a.toNat < 0x2000) : ppuWrite a d s = { s with cart := s.cart.chrWrite a d } := if_pos h

theorem ppuWrite_fourScreen (h : 0x2000 ≤ a.toNat) (hf : s.cart.header.fourScreen = true) :
    ppuWrite a d s =
      { s with cart := { s.cart with fourScreen := s.cart.fourScreen.set (s.cart.ntOffset a) d } } := by
  rw [ppuWrite, if_neg (Nat.not_lt.2 h), if_pos hf]

theorem ppuWrite_ciram (h : 0x2000 ≤ a.toNat) (hf : s.cart.header.fourScreen = false) :
    ppuWrite a d s = { s with ciram := s.ciram.set (s.cart.ntOffset a) d } := by
  rw [ppuWrite, if_neg (Nat.not_lt.2 h), if_neg (by simp [hf])]

end Store

theorem chrWrite_ram {c : Cartridge} (h : c.chrIsRam = true) (a : PpuAddr) (d : Byte) :
    c.chrWrite a d = { c with chr := c.chr.set (c.chrOffset a) d } := if_pos h

theorem chrWrite_rom {c : Cartridge} (h : c.chrIsRam = false) (a : PpuAddr) (d : Byte) : c.chrWrite a d = c :=
  if_neg (Bool.eq_false_iff.1 h)

/-- Cell o of a memory after one store at offset k, if one is made. -/
theorem get?_store (m : Memory) (k o : Nat) (d : Byte) {stores : Prop} [Decidable stores] (h : stores) :
    (m.set k d).get? o = if stores ∧ o = k then some d else m.get? o := by
  rw [Memory.get?_set]
  simp only [h, true_and, eq_comm]

theorem get?_kept (m : Memory) (k o : Nat) (d : Byte) {stores : Prop} [Decidable stores] (h : ¬stores) :
    m.get? o = if stores ∧ o = k then some d else m.get? o := (if_neg fun hs => h hs.1).symm

/-- What a store through the PPU's bus leaves in each memory: one cell of one of them holds the byte (R197, R210). -/
theorem ppuWrite_cells (a : PpuAddr) (d : Byte) (s : State) (o : Nat) :
    (ppuWrite a d s).cart.chr.get? o =
        (if (a.toNat < 0x2000 ∧ s.cart.chrIsRam = true) ∧ o = s.cart.chrOffset a then some d else s.cart.chr.get? o) ∧
      (ppuWrite a d s).ciram.get? o =
        (if (0x2000 ≤ a.toNat ∧ s.cart.header.fourScreen = false) ∧ o = s.cart.ntOffset a then some d
          else s.ciram.get? o) ∧
      (ppuWrite a d s).cart.fourScreen.get? o =
        (if (0x2000 ≤ a.toNat ∧ s.cart.header.fourScreen = true) ∧ o = s.cart.ntOffset a then some d
          else s.cart.fourScreen.get? o) := by
  by_cases hchr : a.toNat < 0x2000
  · have hnt {q : Prop} : ¬(0x2000 ≤ a.toNat ∧ q) := fun h => Nat.not_le.2 hchr h.1
    rw [ppuWrite_pattern d hchr]
    cases hram : s.cart.chrIsRam
    · rw [chrWrite_rom hram]
      exact ⟨get?_kept _ _ o d (by simp), get?_kept _ _ o d hnt, get?_kept _ _ o d hnt⟩
    · rw [chrWrite_ram hram]
      exact ⟨get?_store _ _ o d ⟨hchr, rfl⟩, get?_kept _ _ o d hnt, get?_kept _ _ o d hnt⟩
  · have hpattern {q : Prop} : ¬(a.toNat < 0x2000 ∧ q) := fun h => hchr h.1
    have hnt := Nat.le_of_not_lt hchr
    cases hfour : s.cart.header.fourScreen
    · rw [ppuWrite_ciram d hnt hfour]
      exact ⟨get?_kept _ _ o d hpattern, get?_store _ _ o d ⟨hnt, rfl⟩, get?_kept _ _ o d (by simp)⟩
    · rw [ppuWrite_fourScreen d hnt hfour]
      exact ⟨get?_kept _ _ o d hpattern, get?_kept _ _ o d (by simp), get?_store _ _ o d ⟨hnt, rfl⟩⟩

theorem getD_get?_set (m : Memory) (k : Nat) (d e : Byte) : ((m.set k d).get? k).getD e = d := by
  rw [Memory.get?_set, if_pos rfl]
  rfl

/-- A stored byte is read back where the address selects RAM (R197, R210, R211, R216). -/
theorem ppuRead_ppuWrite (a : PpuAddr) (d : Byte) (s : State) (h : 0x2000 ≤ a.toNat ∨ s.cart.chrIsRam = true) :
    ppuRead (ppuWrite a d s) a = d := by
  by_cases hchr : a.toNat < 0x2000
  · have hram := h.resolve_left (Nat.not_le.2 hchr)
    rw [ppuWrite_pattern d hchr, chrWrite_ram hram, ppuRead, if_pos hchr]
    exact getD_get?_set _ _ d _
  · have hnt := Nat.le_of_not_lt hchr
    rw [ppuRead, if_neg hchr]
    cases hfour : s.cart.header.fourScreen
    · rw [ppuWrite_ciram d hnt hfour, if_neg (by simp [hfour])]
      exact getD_get?_set _ _ d _
    · rw [ppuWrite_fourScreen d hnt hfour, if_pos hfour]
      exact getD_get?_set _ _ d _

section Data

variable (s : State)

theorem readData_below (h : s.ppu.rendering = false) (hv : (s.ppu.v.setWidth 14).toNat < 0x3F00) :
    readData s = ppuDrive s.ppu.readBuffer
      { s with ppu := { s.ppu.stepV with readBuffer := ppuRead s (s.ppu.v.setWidth 14) } } := by
  rw [readData, if_neg (Bool.eq_false_iff.1 h), if_pos hv]

theorem readData_palette (h : s.ppu.rendering = false) (hv : 0x3F00 ≤ (s.ppu.v.setWidth 14).toNat) :
    readData s = ppuDrive
      (s.ppu.ioLatch.extractLsb' 6 2 ++
        (s.ppu.palette[paletteEntry (s.ppu.v.setWidth 14)] &&& (if s.ppu.mask.getLsbD 0 then 0x30#6 else 0x3F#6)))
      { s with ppu := { s.ppu.stepV with readBuffer := ppuRead s (s.ppu.v.setWidth 14 - 0x1000#14) } } := by
  rw [readData, if_neg (Bool.eq_false_iff.1 h), if_neg (Nat.not_lt.2 hv), ← paletteByte_fields]

theorem readData_rendering (h : s.ppu.rendering = true) :
    readData s = ppuDrive s.ppu.readBuffer
      { s with draws := s.draws + 1, ppu := { s.ppu.glitchV with readBuffer := Config.bufferRead s.draws } } := by
  rw [readData, if_pos h]

variable (d : Byte)

theorem writeData_below (h : s.ppu.rendering = false) (hv : (s.ppu.v.setWidth 14).toNat < 0x3F00) :
    writeData d s = ppuWrite (s.ppu.v.setWidth 14) d { s with ppu := s.ppu.stepV } := by
  rw [writeData, if_neg (Bool.eq_false_iff.1 h), if_pos hv]

theorem writeData_palette (h : s.ppu.rendering = false) (hv : 0x3F00 ≤ (s.ppu.v.setWidth 14).toNat) :
    writeData d s =
      { s with ppu := { s.ppu.stepV with
          palette := s.ppu.palette.set (paletteEntry (s.ppu.v.setWidth 14)).val (d.setWidth 6) } } := by
  rw [writeData, if_neg (Bool.eq_false_iff.1 h), if_neg (Nat.not_lt.2 hv)]
  rfl

theorem writeData_rendering (h : s.ppu.rendering = true) : writeData d s = { s with ppu := s.ppu.glitchV } := by
  rw [writeData, if_pos h]

end Data

/-- A palette store changes the one cell (R222, R232). -/
theorem palette_set (palette : Vector (BitVec 6) 32) (a : PpuAddr) (d : Byte) (k : Fin 32) :
    (palette.set (paletteEntry a).val (d.setWidth 6))[k] =
      if k.val = (paletteEntry a).val then d.extractLsb' 0 6 else palette[k] := by
  show (palette.set (paletteEntry a).val (d.setWidth 6))[k.val] = _
  rw [Vector.getElem_set, BitVec.setWidth_eq_extractLsb' (by decide)]
  simp only [eq_comm]
  rfl

/-- The latch takes the byte before the register does (R224). -/
def State.latched (d : Byte) (s : State) : State := { s with ppu := { s.ppu with ioLatch := d } }

/-- Settles O45: below the palette an access is one of the PPU's bus, at the palette one of a cell, and while rendering
neither. -/
theorem ppuDataAccess : Obligations.PpuDataAccess := by
  unfold Obligations.PpuDataAccess
  intro a d s hlo hhi h v stepped cell
  have hread : readAccess a s = readData s := readAccess_register hlo hhi (r := 7#3) h s
  have hwrite : writeAccess a d s = drive d (writeData d (s.latched d)) :=
    writeAccess_register hlo hhi (r := 7#3) h d s
  have haddr : (s.ppu.v.setWidth 14).toNat = v := BitVec.toNat_setWidth ..
  have hcell : (paletteEntry (s.ppu.v.setWidth 14)).val = cell v := by
    rw [paletteEntry_val, haddr]
  rw [hread, hwrite, dataAddr_eq]
  refine ⟨fun hrend => ?off, fun hrend => ?on⟩
  case on =>
    rw [readData_rendering s hrend, writeData_rendering (s.latched d) d hrend]
    exact ⟨rfl, rfl, rfl, rfl, rfl⟩
  case off =>
    by_cases hv : v < 0x3F00
    · have hnot : ¬0x3F00 ≤ v := Nat.not_le.2 hv
      have bounded {p q r : Prop} : (p ∧ q) ∧ r ↔ p ∧ v < 0x3F00 ∧ q ∧ r := by simp only [hv, true_and, and_assoc]
      have hppu := ppuWrite_ppu (s.ppu.v.setWidth 14) d { s.latched d with ppu := (s.latched d).ppu.stepV }
      have hcells := ppuWrite_cells (s.ppu.v.setWidth 14) d { s.latched d with ppu := (s.latched d).ppu.stepV }
      have hback := ppuRead_ppuWrite (s.ppu.v.setWidth 14) d { s.latched d with ppu := (s.latched d).ppu.stepV }
      rw [haddr] at hcells hback
      rw [readData_below s hrend (haddr.trans_lt hv), writeData_below (s.latched d) d hrend (haddr.trans_lt hv)]
      refine ⟨rfl, (congrArg Ppu.v hppu :), fun _ => ⟨rfl, rfl⟩, fun _ => hback, fun h => absurd h hnot,
        fun _ => (congrArg Ppu.palette hppu :), (congrArg Ppu.oam hppu :), fun o => ?_, fun o => ?_, fun o => ?_⟩
      · exact (hcells o).1.trans (if_congr and_assoc rfl rfl)
      · exact (hcells o).2.1.trans (if_congr bounded rfl rfl)
      · exact (hcells o).2.2.trans (if_congr bounded rfl rfl)
    · have hpal : 0x3F00 ≤ v := Nat.le_of_not_lt hv
      have hnt {q : Prop} : ¬(0x2000 ≤ v ∧ v < 0x3F00 ∧ q) := fun h => hv h.2.1
      have hunder : BitVec.ofNat 14 (v - 0x1000) = s.ppu.v.setWidth 14 - 0x1000#14 := by
        rw [← haddr]
        exact underPalette_eq (haddr ▸ hpal)
      rw [readData_palette s hrend (haddr ▸ hpal), writeData_palette (s.latched d) d hrend (haddr ▸ hpal)]
      refine ⟨rfl, rfl, fun h => absurd h hv, fun h => absurd h hv, fun _ => ⟨?_, fun k hk => ?_, fun k => ?_⟩,
        fun h => absurd h hv, rfl, fun o => ?_, fun o => ?_, fun o => ?_⟩
      · exact congrArg (ppuRead s) hunder.symm
      · have hk : k = paletteEntry (s.ppu.v.setWidth 14) := Fin.ext (hk.trans hcell.symm)
        rw [hk]
        rfl
      · rw [← hcell]
        exact palette_set s.ppu.palette _ d k
      · exact (if_neg fun h => hv (h.1.trans (by decide))).symm
      · exact (if_neg hnt).symm
      · exact (if_neg hnt).symm

end Sys2Proof.Machine
end

section
/-!
PROOFS. The increments of v on its fields (O46): a mask of v is a concatenation of masks of the fields, and an addition that
carries out of no field adds to that field alone.
-/

namespace Sys2Proof.Machine

/-- v from its fields: fine Y, nametable, coarse Y, coarse X (R220). -/
def vOf (fineY : BitVec 3) (nt : BitVec 2) (coarseY coarseX : BitVec 5) : BitVec 15 := fineY ++ nt ++ coarseY ++ coarseX

section Fields

variable (fineY fineY' : BitVec 3) (nt nt' : BitVec 2) (coarseY coarseY' coarseX coarseX' : BitVec 5)

theorem append_toNat {m n : Nat} (x : BitVec m) (y : BitVec n) : (x ++ y).toNat = x.toNat * 2 ^ n + y.toNat := by
  rw [BitVec.toNat_append, ← Nat.shiftLeft_add_eq_or_of_lt y.isLt, Nat.shiftLeft_eq]

theorem vOf_toNat :
    (vOf fineY nt coarseY coarseX).toNat =
      fineY.toNat * 4096 + nt.toNat * 1024 + coarseY.toNat * 32 + coarseX.toNat := by
  unfold vOf
  rw [append_toNat, append_toNat, append_toNat]
  omega

theorem vOf_and :
    vOf fineY nt coarseY coarseX &&& vOf fineY' nt' coarseY' coarseX' =
      vOf (fineY &&& fineY') (nt &&& nt') (coarseY &&& coarseY') (coarseX &&& coarseX') := by
  unfold vOf
  rw [← BitVec.and_append, ← BitVec.and_append, ← BitVec.and_append]

theorem vOf_or :
    vOf fineY nt coarseY coarseX ||| vOf fineY' nt' coarseY' coarseX' =
      vOf (fineY ||| fineY') (nt ||| nt') (coarseY ||| coarseY') (coarseX ||| coarseX') := by
  unfold vOf
  rw [← BitVec.or_append, ← BitVec.or_append, ← BitVec.or_append]

theorem vOf_xor :
    vOf fineY nt coarseY coarseX ^^^ vOf fineY' nt' coarseY' coarseX' =
      vOf (fineY ^^^ fineY') (nt ^^^ nt') (coarseY ^^^ coarseY') (coarseX ^^^ coarseX') := by
  unfold vOf
  rw [← BitVec.xor_append, ← BitVec.xor_append, ← BitVec.xor_append]

/-! ## The masks of R246 and R247 -/

theorem vOf_coarseX : vOf fineY nt coarseY coarseX &&& 0x001F#15 = vOf 0#3 0#2 0#5 coarseX := by
  have hmask : 0x001F#15 = vOf 0#3 0#2 0#5 (BitVec.allOnes 5) := rfl
  simp only [hmask, vOf_and, BitVec.and_zero, BitVec.and_allOnes]

theorem vOf_clear_coarseX : vOf fineY nt coarseY coarseX &&& ~~~0x001F#15 = vOf fineY nt coarseY 0#5 := by
  have hmask : ~~~0x001F#15 = vOf (BitVec.allOnes 3) (BitVec.allOnes 2) (BitVec.allOnes 5) 0#5 := rfl
  simp only [hmask, vOf_and, BitVec.and_zero, BitVec.and_allOnes]

theorem vOf_clear_fineY : vOf fineY nt coarseY coarseX &&& 0x0FFF#15 = vOf 0#3 nt coarseY coarseX := by
  have hmask : 0x0FFF#15 = vOf 0#3 (BitVec.allOnes 2) (BitVec.allOnes 5) (BitVec.allOnes 5) := rfl
  simp only [hmask, vOf_and, BitVec.and_zero, BitVec.and_allOnes]

theorem vOf_clear_coarseY : vOf fineY nt coarseY coarseX &&& ~~~0x03E0#15 = vOf fineY nt 0#5 coarseX := by
  have hmask : ~~~0x03E0#15 = vOf (BitVec.allOnes 3) (BitVec.allOnes 2) 0#5 (BitVec.allOnes 5) := rfl
  simp only [hmask, vOf_and, BitVec.and_zero, BitVec.and_allOnes]

/-- A flip of nametable bits alone. -/
theorem vOf_flip : vOf fineY nt coarseY coarseX ^^^ vOf 0#3 nt' 0#5 0#5 = vOf fineY (nt ^^^ nt') coarseY coarseX := by
  simp only [vOf_xor, BitVec.xor_zero]

/-! ## Additions and shifts -/

theorem vOf_add_coarseX (h : coarseX ≠ 31#5) :
    vOf fineY nt coarseY coarseX + 1#15 = vOf fineY nt coarseY (coarseX + 1#5) := by
  have hx : coarseX.toNat ≠ 31 := fun e => h (BitVec.eq_of_toNat_eq e)
  have hv := (vOf fineY nt coarseY coarseX).isLt
  have hlt := coarseX.isLt
  rw [vOf_toNat] at hv
  apply BitVec.eq_of_toNat_eq
  rw [BitVec.toNat_add, vOf_toNat, vOf_toNat, BitVec.toNat_add, BitVec.toNat_ofNat, BitVec.toNat_ofNat]
  omega

theorem vOf_add_fineY (h : fineY ≠ 7#3) :
    vOf fineY nt coarseY coarseX + 0x1000#15 = vOf (fineY + 1#3) nt coarseY coarseX := by
  have hy : fineY.toNat ≠ 7 := fun e => h (BitVec.eq_of_toNat_eq e)
  have hv := (vOf fineY nt coarseY coarseX).isLt
  have hlt := fineY.isLt
  rw [vOf_toNat] at hv
  have hnt := nt.isLt
  have hcy := coarseY.isLt
  have hcx := coarseX.isLt
  apply BitVec.eq_of_toNat_eq
  rw [BitVec.toNat_add, vOf_toNat, vOf_toNat, BitVec.toNat_add, BitVec.toNat_ofNat, BitVec.toNat_ofNat]
  omega

theorem vOf_fineY_lt : vOf fineY nt coarseY coarseX >>> 12 < 7#15 ↔ fineY ≠ 7#3 := by
  have hlt := fineY.isLt
  have hnt := nt.isLt
  have hcy := coarseY.isLt
  have hcx := coarseX.isLt
  rw [BitVec.lt_def, BitVec.toNat_ushiftRight, Nat.shiftRight_eq_div_pow, vOf_toNat, ne_eq, ← BitVec.toNat_inj,
    BitVec.toNat_ofNat, BitVec.toNat_ofNat]
  omega

theorem vOf_coarseY : (vOf fineY nt coarseY coarseX >>> 5) &&& 31#15 = vOf 0#3 0#2 0#5 coarseY := by
  have hcy := coarseY.isLt
  have hcx := coarseX.isLt
  have hmask : (31#15).toNat = 2 ^ 5 - 1 := rfl
  apply BitVec.eq_of_toNat_eq
  rw [BitVec.toNat_and, hmask, Nat.and_two_pow_sub_one_eq_mod, BitVec.toNat_ushiftRight, Nat.shiftRight_eq_div_pow,
    vOf_toNat, vOf_toNat]
  simp only [BitVec.toNat_ofNat]
  omega

theorem vOf_low_eq_iff (c : BitVec 5) : vOf 0#3 0#2 0#5 coarseX = vOf 0#3 0#2 0#5 c ↔ coarseX = c :=
  BitVec.append_right_inj _

theorem vOf_low_shift : vOf 0#3 0#2 0#5 coarseX <<< 5 = vOf 0#3 0#2 coarseX 0#5 := by
  have hlt := coarseX.isLt
  apply BitVec.eq_of_toNat_eq
  rw [BitVec.toNat_shiftLeft, Nat.shiftLeft_eq, vOf_toNat, vOf_toNat]
  simp only [BitVec.toNat_ofNat]
  omega

end Fields

/-- The coarse X increment on fields (R246). -/
theorem coarseXInc_vOf (fineY : BitVec 3) (nt : BitVec 2) (coarseY coarseX : BitVec 5) :
    coarseXInc (vOf fineY nt coarseY coarseX) =
      vOf fineY (if coarseX = 31#5 then nt ^^^ 1#2 else nt) coarseY (coarseX + 1#5) := by
  unfold coarseXInc
  rw [vOf_coarseX, vOf_clear_coarseX]
  have hlast : vOf 0#3 0#2 0#5 coarseX = 31#15 ↔ coarseX = 31#5 := vOf_low_eq_iff coarseX 31#5
  by_cases h : coarseX = 31#5
  · rw [if_pos (hlast.2 h), if_pos h, h]
    exact vOf_flip fineY nt 1#2 coarseY 0#5
  · rw [if_neg (mt hlast.1 h), if_neg h]
    exact vOf_add_coarseX fineY nt coarseY coarseX h

/-- The Y increment on fields (R247). -/
theorem yInc_vOf (fineY : BitVec 3) (nt : BitVec 2) (coarseY coarseX : BitVec 5) :
    yInc (vOf fineY nt coarseY coarseX) =
      if fineY ≠ 7#3 then vOf (fineY + 1#3) nt coarseY coarseX
      else vOf 0#3 (if coarseY = 29#5 then nt ^^^ 2#2 else nt) (if coarseY = 29#5 then 0#5 else coarseY + 1#5) coarseX := by
  have hrow29 : vOf 0#3 0#2 0#5 coarseY = 29#15 ↔ coarseY = 29#5 := vOf_low_eq_iff coarseY 29#5
  have hrow31 : vOf 0#3 0#2 0#5 coarseY = 31#15 ↔ coarseY = 31#5 := vOf_low_eq_iff coarseY 31#5
  unfold yInc
  dsimp only
  rw [vOf_clear_fineY, vOf_coarseY, vOf_clear_coarseY]
  simp only [vOf_fineY_lt]
  by_cases hfine : fineY ≠ 7#3
  · rw [if_pos hfine, if_pos hfine]
    exact vOf_add_fineY fineY nt coarseY coarseX hfine
  rw [if_neg hfine, if_neg hfine]
  by_cases h29 : coarseY = 29#5
  · rw [if_pos (hrow29.2 h29), if_pos h29, if_pos h29]
    exact vOf_flip 0#3 nt 2#2 0#5 coarseX
  rw [if_neg (mt hrow29.1 h29), if_neg h29, if_neg h29]
  by_cases h31 : coarseY = 31#5
  · rw [if_pos (hrow31.2 h31), h31]
    rfl
  · have hnext : vOf 0#3 0#2 0#5 coarseY + 1 = vOf 0#3 0#2 0#5 (coarseY + 1#5) := vOf_add_coarseX _ _ _ _ h31
    rw [if_neg (mt hrow31.1 h31), hnext, vOf_low_shift, vOf_or]
    simp only [BitVec.or_zero, BitVec.zero_or]

/-- Settles O46: the two increments, field by field. -/
theorem scrollIncrements : Obligations.ScrollIncrements := by
  unfold Obligations.ScrollIncrements
  intro fineY nt coarseY coarseX
  refine ⟨coarseXInc_vOf fineY nt coarseY coarseX, (yInc_vOf fineY nt coarseY coarseX).trans ?_⟩
  rfl

end Sys2Proof.Machine
end

section
/-!
PROOFS. Sprite evaluation (O48): what its first loop has found, copied and marked after n sprites (`Scanned`) is an invariant of
the loop, which ends after 64 sprites or 8 found.
-/

namespace Sys2Proof.Machine

section Scan

variable (p : Ppu) (h line : Nat)

/-- Whether sprite n's rows contain the line (R250). -/
def spriteInRange (n : Nat) : Bool := inRange h line (p.oamByte (4 * n))

/-- The sprites in range among the first n. -/
def spritesBefore (n : Nat) : List Nat := (List.range n).filter (spriteInRange p h line)

theorem spritesBefore_succ (n : Nat) :
    spritesBefore p h line (n + 1) =
      if spriteInRange p h line n then spritesBefore p h line n ++ [n] else spritesBefore p h line n := by
  unfold spritesBefore
  rw [List.range_succ, List.filter_append]
  split
  · next hr => rw [List.filter_cons_of_pos hr, List.filter_nil]
  · next hr => rw [List.filter_cons_of_neg hr, List.filter_nil, List.append_nil]

/-- Once eight sprites have been found, these are the first eight of all. -/
theorem spritesBefore_take (n : Nat) (hn : n ≤ 64) (hdone : n = 64 ∨ (spritesBefore p h line n).length = 8)
    (hle : (spritesBefore p h line n).length ≤ 8) :
    (spritesBefore p h line 64).take 8 = spritesBefore p h line n := by
  obtain rfl | height := hdone
  · exact List.take_of_length_le hle
  · have hsplit : List.range 64 = List.range n ++ (List.range (64 - n)).map (n + ·) := by
      rw [← List.range_add, Nat.add_sub_cancel' hn]
    have hall : spritesBefore p h line 64 =
        spritesBefore p h line n ++ ((List.range (64 - n)).map (n + ·)).filter (spriteInRange p h line) := by
      unfold spritesBefore
      rw [hsplit, List.filter_append]
    rw [hall, List.take_append_of_le_length (Nat.le_of_eq height.symm), List.take_of_length_le hle]

/-- The state of the first loop after `e.n` sprites: how many are in range, whether sprite 0 is, and their bytes in secondary
OAM, in order (R250). -/
structure Scanned (e : EvalScan) : Prop where
  seen : e.n ≤ 64
  count : e.count = (spritesBefore p h line e.n).length
  most : e.count ≤ 8
  spr0 : e.spr0 = (decide (0 < e.n) && spriteInRange p h line 0)
  sec : ∀ k n, (spritesBefore p h line e.n)[k]? = some n → ∀ j, j < 4 → ∀ hk : 4 * k + j < 32,
    e.sec[4 * k + j] = p.oamByte (4 * n + j)

/-- The four stores of a copied sprite fill its four bytes of secondary OAM. -/
theorem getElem_copySprite (sec : Vector Byte 32) (c : Nat) (b : Nat → Byte) (i : Nat) (hi : i < 32) :
    ((((sec.setIfInBounds (4 * c) (b 0)).setIfInBounds (4 * c + 1) (b 1)).setIfInBounds (4 * c + 2) (b 2)).setIfInBounds
      (4 * c + 3) (b 3))[i] = if i / 4 = c then b (i % 4) else sec[i] := by
  simp only [Vector.getElem_setIfInBounds]
  by_cases hc : i / 4 = c
  · rw [if_pos hc]
    obtain hm | hm | hm | hm : i % 4 = 0 ∨ i % 4 = 1 ∨ i % 4 = 2 ∨ i % 4 = 3 := by omega
    · rw [if_neg (by omega), if_neg (by omega), if_neg (by omega), if_pos (by omega), hm]
    · rw [if_neg (by omega), if_neg (by omega), if_pos (by omega), hm]
    · rw [if_neg (by omega), if_pos (by omega), hm]
    · rw [if_pos (by omega), hm]
  · rw [if_neg hc, if_neg (by omega), if_neg (by omega), if_neg (by omega), if_neg (by omega)]

variable {p h line}

theorem Scanned.first (sec : Vector Byte 32) (k : Nat) : Scanned p h line { sec := sec, count := 0, spr0 := false, k := k, n := 0 } :=
  ⟨Nat.zero_le 64, rfl, Nat.zero_le 8, rfl, fun _ _ hk => by simp [spritesBefore] at hk⟩

theorem Scanned.skip {e : EvalScan} (hs : Scanned p h line e) (hn : e.n < 64) (hr : spriteInRange p h line e.n = false) (k : Nat) :
    Scanned p h line { e with k := k, n := e.n + 1 } := by
  have hsame : spritesBefore p h line (e.n + 1) = spritesBefore p h line e.n := by
    rw [spritesBefore_succ, hr]
    rfl
  refine ⟨hn, by rw [hsame]; exact hs.count, hs.most, hs.spr0.trans ?_, by rw [hsame]; exact hs.sec⟩
  cases hzero : e.n with
  | zero => rw [hzero] at hr; simp [hr]
  | succ n => rfl

theorem Scanned.copy {e : EvalScan} (hs : Scanned p h line e) (hn : e.n < 64) (hc : e.count < 8)
    (hr : spriteInRange p h line e.n = true) (k : Nat) :
    Scanned p h line
      { sec := (((e.sec.setIfInBounds (4 * e.count) (p.oamByte (4 * e.n))).setIfInBounds (4 * e.count + 1)
          (p.oamByte (4 * e.n + 1))).setIfInBounds (4 * e.count + 2) (p.oamByte (4 * e.n + 2))).setIfInBounds
          (4 * e.count + 3) (p.oamByte (4 * e.n + 3))
        count := e.count + 1, spr0 := e.spr0 || e.n == 0, k := k, n := e.n + 1 } := by
  have hone : spritesBefore p h line (e.n + 1) = spritesBefore p h line e.n ++ [e.n] := by
    rw [spritesBefore_succ, hr]
    rfl
  refine ⟨hn, by rw [hone, List.length_append, ← hs.count]; rfl, hc, ?_, fun i n hi j hj hk => ?_⟩
  · show (e.spr0 || e.n == 0) = _
    rw [hs.spr0]
    cases hzero : e.n with
    | zero => rw [hzero] at hr; rw [hr]; rfl
    | succ n => simp
  · have hcopied := getElem_copySprite e.sec e.count (fun j => p.oamByte (4 * e.n + j)) (4 * i + j) hk
    refine hcopied.trans ?_
    rw [hone] at hi
    by_cases hlast : i = e.count
    · rw [hlast, hs.count, List.getElem?_concat_length] at hi
      cases hi
      rw [if_pos (by omega), (by omega : (4 * i + j) % 4 = j)]
    · have hlt : i < e.count := by
        have := (List.getElem?_eq_some_iff.1 hi).1
        rw [List.length_append, ← hs.count, List.length_singleton] at this
        omega
      rw [List.getElem?_append_left (hs.count ▸ hlt)] at hi
      rw [if_neg (by omega)]
      exact hs.sec i n hi j hj hk

/-- The loop keeps `Scanned`, and ends with every sprite seen or eight found. -/
theorem evalCopy_scanned (fuel : Nat) (e : EvalScan) (hs : Scanned p h line e) (hf : 64 ≤ e.n + fuel) :
    Scanned p h line (evalCopy p h line fuel e) ∧
      ((evalCopy p h line fuel e).n = 64 ∨ (evalCopy p h line fuel e).count = 8) := by
  induction fuel generalizing e with
  | zero => exact ⟨hs, .inl (Nat.le_antisymm hs.seen hf)⟩
  | succ fuel ih =>
    unfold evalCopy
    split
    · next hmore =>
      obtain ⟨hn, hc⟩ : e.n < 64 ∧ e.count < 8 := by simpa using hmore
      split
      · next hr => exact ih _ (hs.copy hn hc hr _) (by dsimp only; omega)
      · next hr => exact ih _ (hs.skip hn (Bool.eq_false_iff.2 hr) _) (by dsimp only; omega)
    · next hdone =>
      have hseen := hs.seen
      have hmost := hs.most
      simp at hdone
      exact ⟨hs, by omega⟩

end Scan

theorem inRange_eq (h line : Nat) (y : Byte) : inRange h line y = decide (y.toNat ≤ line ∧ line < y.toNat + h) := by
  unfold inRange
  rw [← Bool.decide_and, decide_eq_decide]
  omega

theorem evalOverflow_done (p : Ppu) (h line fuel m k : Nat) : evalOverflow p h line fuel 64 m k = none := by
  cases fuel with
  | zero => rfl
  | succ fuel => exact if_neg (Nat.lt_irrefl 64)

/-- The first loop of p's evaluation (R250). -/
def Ppu.firstLoop (p : Ppu) : EvalScan :=
  evalCopy p p.spriteHeight p.scanline 64 { sec := p.secOam, count := 0, spr0 := false, k := 0, n := 0 }

theorem evaluate_eq (p : Ppu) :
    p.evaluate = { p with
      secOam := p.firstLoop.sec, evalCount := p.firstLoop.count, evalSpr0 := p.firstLoop.spr0
      evalOvfDot := evalOverflow p p.spriteHeight p.scanline 64 p.firstLoop.n 0 p.firstLoop.k } := by
  unfold Ppu.evaluate Ppu.firstLoop
  rfl

theorem firstLoop_scanned (p : Ppu) :
    Scanned p p.spriteHeight p.scanline p.firstLoop ∧ (p.firstLoop.n = 64 ∨ p.firstLoop.count = 8) :=
  evalCopy_scanned 64 _ (.first p.secOam 0) (Nat.le_refl 64)

/-- Settles O48: the first loop's end, and no overflow search where it has seen every sprite. -/
theorem spriteEvaluationFindsFirstEight : Obligations.SpriteEvaluationFindsFirstEight := by
  unfold Obligations.SpriteEvaluationFindsFirstEight
  intro p height inRangeHere found q
  have hrange : inRangeHere = spriteInRange p p.spriteHeight p.scanline :=
    funext fun n => (inRange_eq p.spriteHeight p.scanline _).symm
  obtain ⟨hs, hend⟩ := firstLoop_scanned p
  have hq : q = _ := evaluate_eq p
  rw [hq]
  generalize p.firstLoop = e at hs hend ⊢
  obtain ⟨hseen, hcount, hmost, hspr0, hsec⟩ := hs
  have hfound : found = spritesBefore p p.spriteHeight p.scanline e.n := by
    show ((List.range 64).filter inRangeHere).take 8 = _
    rw [hrange]
    exact spritesBefore_take p _ _ e.n hseen (hcount ▸ hend) (hcount ▸ hmost)
  have hpos : 0 < e.n := by
    obtain hall | height := hend
    · omega
    · by_contra hzero
      rw [(by omega : e.n = 0)] at hcount
      exact absurd (hcount.symm.trans height) (by simp [spritesBefore])
  refine ⟨?count, ?spr0, fun k n hk j hj => ?bytes, fun hlt => ?overflow⟩
  case count => rw [hfound]; exact hcount
  case spr0 => rw [hrange]; exact hspr0.trans (by simp [hpos])
  case bytes =>
    have hk8 : k < e.count := by
      rw [hcount, ← hfound]
      exact (List.getElem?_eq_some_iff.1 hk).1
    have hlt : 4 * k + j < 32 := by omega
    rw [hfound] at hk
    show e.sec[(4 * k + j) % 32]'_ = _
    simp only [Nat.mod_eq_of_lt hlt]
    exact hsec k n hk j hj hlt
  case overflow =>
    rw [hfound, ← hcount] at hlt
    have hall : e.n = 64 := hend.resolve_right (Nat.ne_of_lt hlt)
    show evalOverflow p _ _ 64 e.n 0 e.k = none
    rw [hall]
    exact evalOverflow_done ..

end Sys2Proof.Machine
end

section
/-!
PROOFS. The bus and the cartridge: the MMC3's banks (O56) and scanline counter (O57), the controller ports (O58), open bus (O59),
the loader (O60) and what it leaves at power-on (O39).
-/

namespace Sys2Proof.Machine

/-! ## The MMC3's banks (R214, R215) -/

/-- A read of PRG ROM puts its byte on the bus. -/
theorem readAccess_rom (a : Word) (s : State) (h : 0x8000 ≤ a.toNat) : (readAccess a s).cpuBus = s.cart.prgRomByte a :=
  readAccess_memByte (memByte_rom s a h)

theorem and_3F_toNat (v : Byte) : (v &&& 0x3F#8).toNat = v.toNat % 64 := by
  have hmask : (0x3F#8).toNat = 2 ^ 6 - 1 := rfl
  rw [BitVec.toNat_and, hmask, Nat.and_two_pow_sub_one_eq_mod]

theorem prgOffset_mmc3 {c : Cartridge} (h : c.mapper = .mmc3) (a : Word) :
    c.prgOffset a = (c.mmc3PrgBank a % (2 * c.header.prgUnits)) * 8192 + a.toNat % 8192 := by
  rw [Cartridge.prgOffset, h]

/-- With PRG mode 0 register 6 is the bank at $8000-$9FFF (R215). -/
theorem mmc3PrgBank_low {c : Cartridge} {a : Word} (hmode : c.mmc3.bankSelect.getLsbD 6 = false) (h : a.toNat < 0xA000) :
    c.mmc3PrgBank a = c.mmc3.bankReg[6].toNat % 64 := by
  rw [Cartridge.mmc3PrgBank, if_pos h, hmode, if_neg (by decide), and_3F_toNat]

/-- The last bank is fixed at $E000-$FFFF (R215). -/
theorem mmc3PrgBank_fixed {c : Cartridge} {a : Word} (h : 0xE000 ≤ a.toNat) :
    c.mmc3PrgBank a = 2 * c.header.prgUnits - 1 := by
  rw [Cartridge.mmc3PrgBank, if_neg (by omega), if_neg (by omega), if_neg (by omega)]

/-- A write of $8000-$FFFF goes to the MMC3's registers (R214). -/
theorem writeAccess_mmc3 {a : Word} (v : Byte) {s : State} (hm : s.cart.mapper = .mmc3) (h : 0x8000 ≤ a.toNat) :
    (writeAccess a v s).cart = { s.cart with mmc3 := s.cart.mmc3.write a v } := by
  rw [writeAccess, routeWrite_cart v s (by omega)]
  show s.cart.cpuWrite s.params a v = _
  rw [Cartridge.cpuWrite, if_neg (by omega), if_neg (by omega)]
  split
  · next hn => exact absurd (hm.symm.trans hn) (by decide)
  · rfl

/-- Settles O56: the two writes leave bank register 6 at k and PRG mode 0. -/
theorem mmc3BankRoundTrip : Obligations.Mmc3BankRoundTrip := by
  unfold Obligations.Mmc3BankRoundTrip
  intro s k a hm hpos banks t
  refine ⟨fun hlo hhi => ?switched, fun hlo => ?fixed⟩
  case switched =>
    have hselect := writeAccess_mmc3 (a := 0x8000) 6 hm (by decide)
    have hbank := writeAccess_mmc3 (a := 0x8001) k (s := writeAccess 0x8000 6 s) (by rw [hselect]; exact hm) (by decide)
    rw [hselect] at hbank
    have hcart : t.cart = { s.cart with
        mmc3 := { s.cart.mmc3 with bankSelect := 6, bankReg := s.cart.mmc3.bankReg.set 6 k } } := hbank
    have hreg : (s.cart.mmc3.bankReg.set 6 k)[6] = k := Vector.getElem_set_self ..
    have hmode : (6 : Byte).getLsbD 6 = false := by decide
    rw [readAccess_rom a t hlo, Cartridge.prgRomByte, prgOffset_mmc3 (by rw [hcart]; exact hm),
      mmc3PrgBank_low (by rw [hcart]; exact hmode) hhi, hcart]
    dsimp only
    rw [hreg, (by omega : a.toNat % 8192 = a.toNat - 0x8000)]
  case fixed =>
    have hlt := a.isLt
    rw [readAccess_rom a s (by omega), Cartridge.prgRomByte, prgOffset_mmc3 hm, mmc3PrgBank_fixed hlo,
      Nat.mod_eq_of_lt (by omega), (by omega : a.toNat % 8192 = a.toNat - 0xE000)]

/-! ## The MMC3's scanline counter (R219) -/

/-- The counter n clocks after a reload with the latch: it counts down from the latch to 0, where the flag is raised. -/
structure CountingDown (latch : Byte) (n : Nat) (r : Mmc3) : Prop where
  held : r.irqLatch = latch
  enable : r.irqEnable = true
  reload : r.irqReload = false
  counter : n ≤ latch.toNat → r.irqCounter.toNat = latch.toNat - n
  flag : r.irqFlag = decide (latch.toNat ≤ n)

theorem byte_eq_zero_iff (v : Byte) : v = 0 ↔ v.toNat = 0 := BitVec.toNat_inj.symm

/-- The first clock reloads the counter. -/
theorem countingDown_first {r : Mmc3} (hreload : r.irqReload = true) (hen : r.irqEnable = true) (hflag : r.irqFlag = false) :
    CountingDown r.irqLatch 0 r.clockCounter := by
  unfold Mmc3.clockCounter
  rw [hreload, hen, hflag]
  simp only [Bool.or_true, if_true, Bool.and_true, Bool.false_or]
  exact ⟨rfl, rfl, rfl, fun _ => rfl, by simp only [byte_eq_zero_iff, Nat.le_zero]⟩

theorem CountingDown.next {latch : Byte} {n : Nat} {r : Mmc3} (h : CountingDown latch n r) :
    CountingDown latch (n + 1) r.clockCounter := by
  obtain ⟨hlatch, hen, hreload, hcounter, hflag⟩ := h
  unfold Mmc3.clockCounter
  rw [hreload, hen, hlatch, hflag]
  simp only [Bool.or_false, Bool.and_true, decide_eq_true_eq, byte_eq_zero_iff]
  refine ⟨rfl, rfl, by split <;> rfl, fun hn => ?counter, ?flag⟩
  case counter =>
    have hc := hcounter (Nat.le_of_succ_le hn)
    show (if r.irqCounter.toNat = 0 then latch else r.irqCounter - 1).toNat = _
    rw [if_neg (by omega), BitVec.toNat_sub_of_le (by rw [BitVec.le_def]; exact (by omega : 1 ≤ r.irqCounter.toNat)), hc]
    exact Nat.sub_sub ..
  case flag =>
    show (decide (latch.toNat ≤ n) || decide ((if r.irqCounter.toNat = 0 then latch else r.irqCounter - 1).toNat = 0)) = _
    by_cases hn : latch.toNat ≤ n
    · rw [decide_eq_true hn, decide_eq_true (Nat.le_succ_of_le hn), Bool.true_or]
    · have hc := hcounter (by omega)
      rw [decide_eq_false hn, Bool.false_or, decide_eq_decide, if_neg (by omega),
        BitVec.toNat_sub_of_le (by rw [BitVec.le_def]; exact (by omega : 1 ≤ r.irqCounter.toNat)), hc]
      show latch.toNat - n - 1 = 0 ↔ _
      omega

/-- Settles O57: the first clock reloads the counter, and each further one counts down, to 0 at clock latch + 1. -/
theorem mmc3IrqAfterLatchPlusOneClocks : Obligations.Mmc3IrqAfterLatchPlusOneClocks := by
  unfold Obligations.Mmc3IrqAfterLatchPlusOneClocks
  intro r n hreload hen hflag
  have hdown (k : Nat) : CountingDown r.irqLatch k (Mmc3.clockCounter^[k + 1] r) := by
    induction k with
    | zero => exact countingDown_first hreload hen hflag
    | succ k ih =>
      rw [Function.iterate_succ_apply']
      exact ih.next
  cases n with
  | zero => simp [hflag]
  | succ k => rw [(hdown k).flag, decide_eq_true_eq, Nat.add_le_add_iff_right]

/-! ## Controller ports (R201, R202) -/

theorem shifted_bit (c : Controller) (i : Nat) (hi : i < 8) :
    c.shifted.shift.getLsbD i = if i < 7 then c.shift.getLsbD (i + 1) else true := by
  unfold Controller.shifted
  interval_cases i <;> simp

/-- After n reads the register holds the later buttons below ones (R202). -/
theorem shifted_iterate_bit (c : Controller) (n i : Nat) (hi : i < 8) :
    (Controller.shifted^[n] c).shift.getLsbD i = if n + i < 8 then c.shift.getLsbD (n + i) else true := by
  induction n generalizing i with
  | zero => simp [hi]
  | succ n ih =>
    rw [Function.iterate_succ_apply', shifted_bit _ i hi]
    split
    · next h7 => rw [ih (i + 1) (by omega), Nat.succ_add_eq_add_succ]
    · next h7 => rw [if_neg (by omega)]

/-- A bit shifted out, on a bus whose three top bits are 0. -/
theorem portByte_flag {bus : Byte} (h : bus &&& 0xE0#8 = 0#8) (b : Bool) : (bus &&& 0xE0#8) ||| flag 8 b = flag 8 b := by
  rw [h, BitVec.zero_or]

theorem flag_top (b : Bool) : flag 8 b &&& 0xE0#8 = 0#8 := by cases b <;> rfl

theorem readAccess_port0 {s : State} (h : s.strobe = false) (hb : s.cpuBus &&& 0xE0#8 = 0#8) :
    readAccess 0x4016 s = { s with cpuBus := flag 8 (s.port0.bit false), port0 := s.port0.shifted } := by
  have hbyte : portByte s.port0 s = flag 8 (s.port0.bit false) := by rw [portByte, portByte_flag hb, h]
  show readPort0 s = _
  rw [readPort0, hbyte, if_neg (by simp [h])]
  rfl

theorem readAccess_port1 {s : State} (h : s.strobe = false) (hb : s.cpuBus &&& 0xE0#8 = 0#8) :
    readAccess 0x4017 s = { s with cpuBus := flag 8 (s.port1.bit false), port1 := s.port1.shifted } := by
  have hbyte : portByte s.port1 s = flag 8 (s.port1.bit false) := by rw [portByte, portByte_flag hb, h]
  show readPort1 s = _
  rw [readPort1, hbyte, if_neg (by simp [h])]
  rfl

theorem port0_reads {s : State} (h : s.strobe = false) (hb : s.cpuBus &&& 0xE0#8 = 0#8) (n : Nat) :
    (readAccess 0x4016)^[n + 1] s =
      { s with
        cpuBus := flag 8 ((Controller.shifted^[n] s.port0).bit false), port0 := Controller.shifted^[n + 1] s.port0 } := by
  induction n with
  | zero => exact readAccess_port0 h hb
  | succ n ih =>
    rw [Function.iterate_succ_apply', ih, readAccess_port0 (by exact h) (flag_top _),
      Function.iterate_succ_apply' Controller.shifted (n + 1)]

theorem port1_reads {s : State} (h : s.strobe = false) (hb : s.cpuBus &&& 0xE0#8 = 0#8) (n : Nat) :
    (readAccess 0x4017)^[n + 1] s =
      { s with
        cpuBus := flag 8 ((Controller.shifted^[n] s.port1).bit false), port1 := Controller.shifted^[n + 1] s.port1 } := by
  induction n with
  | zero => exact readAccess_port1 h hb
  | succ n ih =>
    rw [Function.iterate_succ_apply', ih, readAccess_port1 (by exact h) (flag_top _),
      Function.iterate_succ_apply' Controller.shifted (n + 1)]

/-- The n-th bit out of a reloaded port, as a read's byte shows it. -/
theorem serial_byte (c : Controller) (n : Nat) :
    (flag 8 ((Controller.shifted^[n] c.reload).bit false)).getLsbD 0 = (if n < 8 then c.buttons.getLsbD n else true) ∧
      (flag 8 ((Controller.shifted^[n] c.reload).bit false)).extractLsb' 5 3 = 0#3 := by
  have hbit : (Controller.shifted^[n] c.reload).bit false = if n < 8 then c.buttons.getLsbD n else true :=
    shifted_iterate_bit c.reload n 0 (by decide)
  rw [hbit]
  generalize (if n < 8 then c.buttons.getLsbD n else true) = b
  cases b <;> exact ⟨rfl, rfl⟩

theorem flag_buttonA (v : Byte) : flag 8 (v.getLsbD 0) = v &&& 1 := by
  revert v
  decide

/-- Settles O58: a strobe of 1 and 0 reloads both ports, and each read then shifts one. -/
theorem controllerReadsAreSerial : Obligations.ControllerReadsAreSerial := by
  unfold Obligations.ControllerReadsAreSerial
  refine ⟨fun s n => ?serial, fun s hs => ?reload⟩
  case serial =>
    intro u t t'
    have hbus : u.cpuBus &&& 0xE0#8 = 0#8 := (by decide : 0#8 &&& 0xE0#8 = 0#8)
    have ht := port0_reads (s := u) rfl hbus n
    have ht' := port1_reads (s := u) rfl hbus n
    have hbyte := serial_byte s.port0 n
    have hbyte' := serial_byte s.port1 n
    rw [show t = _ from ht, show t' = _ from ht']
    exact ⟨⟨hbyte.1, hbyte.2, rfl⟩, hbyte'.1, hbyte'.2, rfl⟩
  case reload =>
    have h0 : readAccess 0x4016#16 s = reloadPorts (drive (portByte s.port0 s) s) := if_pos hs
    have h1 : readAccess 0x4017#16 s = reloadPorts (drive (portByte s.port1 s) s) := if_pos hs
    have hbit (c : Controller) : portByte c s = s.cpuBus &&& 0xE0 ||| (c.buttons &&& 1) := by
      rw [portByte, hs, ← flag_buttonA]
      rfl
    refine ⟨(congrArg State.cpuBus h0).trans (hbit s.port0), (congrArg State.cpuBus h1).trans (hbit s.port1), fun a ha => ?_⟩
    obtain rfl | rfl := by simpa using ha
    · rw [h0]
      exact ⟨rfl, rfl⟩
    · rw [h1]
      exact ⟨rfl, rfl⟩

/-! ## Open bus (R196, R198, R212, R217, R262) -/

/-- Settles O59: no branch of the routing drives these addresses. -/
theorem openBusReads : Obligations.OpenBusReads := by
  unfold Obligations.OpenBusReads
  intro a s h
  have hports : a ≠ 0x4015#16 ∧ a ≠ 0x4016#16 ∧ a ≠ 0x4017#16 := by
    refine ⟨?_, ?_, ?_⟩
    all_goals
      rintro rfl
      exact absurd h (by simp)
  unfold readAccess
  rw [if_neg (by omega), if_neg (by omega), if_neg hports.1, if_neg hports.2.1, if_neg hports.2.2]
  by_cases hlow : a.toNat < 0x4020
  · rw [if_pos hlow]
  · have hnone : s.cart.cpuRead s.params a = none := by
      unfold Cartridge.cpuRead
      obtain h | h | ⟨h6, h8, hram⟩ := h
      · omega
      · rw [if_pos h.2]
      · rw [if_neg (by omega), if_pos h8, hram]
        rfl
    rw [if_neg hlow, hnone]
    rfl

/-! ## The loader (R206, R207, R209) -/

/-- What an accepted image has passed, and the cartridge it gives. -/
theorem load_ok {image : List Byte} {cart : Cartridge} (h : load image = .ok cart) :
    16 ≤ image.length ∧ 0 < (parseHeader image).prgUnits ∧ Header.sizesPossible (parseHeader image) = true ∧
      ((parseHeader image).mapper = 0 ∨ (parseHeader image).mapper = 4) ∧
      cart = buildCartridge (parseHeader image) image := by
  unfold load at h
  dsimp only at h
  split at h
  · cases h
  next hlength =>
  split at h
  · cases h
  split at h
  · cases h
  next hunits =>
  split at h
  · cases h
  split at h
  · cases h
  next hsizes =>
  split at h
  · cases h
  next hmapper =>
  refine ⟨Nat.le_of_not_lt hlength, Nat.pos_of_ne_zero hunits, by simpa using hsizes, ?_, (Except.ok.inj h).symm⟩
  rwa [not_and_or, not_not, not_not] at hmapper

/-- The sizes that the loader allows are those of a well-formed header. -/
theorem header_wellFormed {h : Header} (hunits : 0 < h.prgUnits) (hsizes : Header.sizesPossible h = true)
    (hmapper : h.mapper = 0 ∨ h.mapper = 4) : h.wellFormed = true := by
  unfold Header.sizesPossible at hsizes
  unfold Header.wellFormed
  obtain h0 | h4 := hmapper
  · rw [if_pos h0] at hsizes
    simpa [h0, hunits] using hsizes
  · rw [if_neg (by omega), if_pos h4] at hsizes
    simpa [h4, hunits] using hsizes

/-- An image right in all but its mapper is rejected by that mapper's number (R209). -/
theorem load_unsupported {image : List Byte} (hlength : 16 ≤ image.length) (hmagic : image.take 4 = imageMagic)
    (hunits : 0 < (parseHeader image).prgUnits) (hsize : Header.imageSize (parseHeader image) ≤ image.length)
    (h0 : (parseHeader image).mapper ≠ 0) (h4 : (parseHeader image).mapper ≠ 4) :
    load image = .error (.unsupportedMapper (parseHeader image).mapper) := by
  have hsizes : Header.sizesPossible (parseHeader image) = true := by
    rw [Header.sizesPossible, if_neg h0, if_neg h4]
  unfold load
  dsimp only
  rw [if_neg (Nat.not_lt.2 hlength), if_neg (not_not.2 hmagic), if_neg (Nat.ne_of_gt hunits), if_neg (Nat.not_lt.2 hsize),
    hsizes, if_neg (by decide), if_pos ⟨h0, h4⟩]

/-- Settles O60: what `load` has checked, and its last check. -/
theorem loaderChecks : Obligations.LoaderChecks := by
  unfold Obligations.LoaderChecks
  refine ⟨fun image cart h => ?accepted, fun image hlength hmagic hunits hsize h0 h4 => ?rejected⟩
  case accepted =>
    obtain ⟨hlength, hunits, hsizes, hmapper, rfl⟩ := load_ok h
    exact ⟨header_wellFormed hunits hsizes hmapper, rfl, rfl, hlength⟩
  case rejected => exact load_unsupported hlength hmagic hunits hsize h0 h4

/-! ## Power-on (R213, R236, R283, R298) -/

theorem ppuInv_powerOn (params : Params) (cart : Cartridge) : PpuInv (State.powerOn params cart) :=
  ⟨Nat.zero_le 261, Nat.zero_le 340, Nat.zero_le 8, Nat.zero_le 8⟩

theorem apuInv_powerOn (params : Params) (cart : Cartridge) : ApuInv (State.powerOn params cart) := by
  refine ⟨Nat.zero_le 254, Nat.zero_le 254, Nat.zero_le 254, Nat.zero_le 254, (by decide : 1 ≤ 8), Nat.le_refl 8, rfl,
    (by decide : 1#15 ≠ 0), fun n h => ?_, fun h => ?_⟩
  · cases h
  · cases h

/-- The memories of a built cartridge are canonical, and those that are RAM lie within their sizes (R206, R208). -/
theorem memoryInv_build (params : Params) (h : Header) (image : List Byte) :
    MemoryInv (State.powerOn params (buildCartridge h image)) := by
  have hempty (n : Nat) : Memory.wf [] ∧ Memory.below n [] := ⟨.nil, fun _ hc => by cases hc⟩
  refine ⟨hempty _, hempty _, ?prgRam, hempty _, Memory.wf_ofRom _ _, Memory.wf_ofRom _ _, fun hram => ?chr⟩
  case prgRam =>
    show Memory.wf (if h.trainer then _ else _) ∧ Memory.below 8192 (if h.trainer then _ else _)
    split
    · refine ⟨Memory.wf_ofBytes _ _, fun c hc => ?_⟩
      have hlt := (Memory.mem_ofBytes hc).2
      rw [List.length_take] at hlt
      omega
    · exact hempty _
  case chr =>
    have hunits : h.chrUnits = 0 := of_decide_eq_true hram
    show Memory.below 8192 (Memory.ofRom 0 ((image.drop _).take (8192 * h.chrUnits)))
    rw [hunits]
    exact (hempty _).2

theorem memoryInv_reset : MemoryInv State.reset := by
  have hempty (n : Nat) : Memory.wf [] ∧ Memory.below n [] := ⟨.nil, fun _ hc => by cases hc⟩
  exact ⟨hempty _, hempty _, hempty _, hempty _, .nil, .nil, fun _ => (hempty _).2⟩

/-- Settles O39: the power-on values, and the memories that the loader lays out. -/
theorem invariantsHoldAtPowerOn : Obligations.InvariantsHoldAtPowerOn := by
  unfold Obligations.InvariantsHoldAtPowerOn
  refine ⟨⟨ppuInv_powerOn _ _, apuInv_powerOn _ _, memoryInv_reset⟩, fun image params cart h => ?_⟩
  obtain ⟨-, -, -, -, rfl⟩ := load_ok h
  exact ⟨ppuInv_powerOn _ _, apuInv_powerOn _ _, memoryInv_build params _ image, rfl, rfl, rfl, rfl, rfl, rfl, rfl, rfl, rfl,
    rfl, rfl, rfl, rfl, ⟨rfl, rfl, rfl⟩, rfl, rfl, rfl, rfl⟩

end Sys2Proof.Machine
end

section
/-!
PROOFS. The interrupt inputs at a cycle's end (O33), the interrupt sequence (O29) and the reset sequence (O31).
-/

namespace Sys2Proof.Machine

/-! ## The end of a cycle (R180) -/

/-- The APU's work of a cycle changes the APU, its DMA request and the audio output. -/
theorem apuCycle_eq (s : State) :
    ∃ apu dmcDma audioOut, apuCycle s = { s with apu := apu, dmcDma := dmcDma, audioOut := audioOut } := by
  unfold apuCycle sampleCheck dmcReader
  dsimp only
  repeat' split
  all_goals exact ⟨_, _, _, rfl⟩

theorem irqPending_eq (c : Cartridge) : c.irqPending = (c.mapper == .mmc3 && c.mmc3.irqFlag) := by
  unfold Cartridge.irqPending
  split
  · next h => rw [h]; rfl
  · next h => rw [h]; exact (Bool.true_and _).symm

/-- What a cycle has done before it samples the interrupt inputs; the counters are the model's own (log 34). -/
def beforeSampling (s : State) : State :=
  let w := apuCycle (ppuDots (3 - s.params.ppuPhase.val) s)
  { w with
    nmiEdges := w.nmiEdges + (nmiOutput w && !w.nmiPrev).toNat
    irqCycles := w.irqCycles + (irqSources w).toNat }

theorem cycleEnd_eq (s : State) :
    cycleEnd s =
      (let u := beforeSampling s
       { u with
        nmiPending := u.nmiPending || ((u.ppu.vblankFlag && u.ppu.ctrl.getLsbD 7) && !u.nmiPrev)
        nmiPrev := u.ppu.vblankFlag && u.ppu.ctrl.getLsbD 7
        irqLine := u.apu.frameIrq || u.apu.dmcIrq || (u.cart.mapper == .mmc3 && u.cart.mmc3.irqFlag)
        cpuCycle := u.cpuCycle + 1 }) := by
  dsimp only
  rw [← irqPending_eq]
  rfl

/-- Neither the dots nor the APU change the registers or the latches. -/
theorem beforeSampling_latches (s : State) :
    (beforeSampling s).regs = s.regs ∧ (beforeSampling s).nmiPending = s.nmiPending ∧
      (beforeSampling s).nmiPrev = s.nmiPrev ∧ (beforeSampling s).cpuCycle = s.cpuCycle := by
  obtain ⟨ppu, draws, mmc3, hdots⟩ := ppuDots_eq (3 - s.params.ppuPhase.val) s
  obtain ⟨apu, dma, audio, hapu⟩ := apuCycle_eq (ppuDots (3 - s.params.ppuPhase.val) s)
  unfold beforeSampling
  rw [hapu, hdots]
  exact ⟨rfl, rfl, rfl, rfl⟩

/-- Settles O33: the sampling is the last thing a cycle does. -/
theorem interruptSampling : Obligations.InterruptSampling := by
  unfold Obligations.InterruptSampling
  intro access s
  exact ⟨beforeSampling (access (ppuDots s.params.ppuPhase.val s)), cycleEnd_eq _, beforeSampling_latches _⟩

/-! ## The interrupt sequence (R178, R184, R185) -/

theorem step_interrupt {s : State} {kind : IntKind} (hfatal : s.fatal = none) (hreset : s.resetPending = false)
    (hhalted : s.halted = false) (hint : s.intNext = some kind) : step s = .next (interruptSequence kind s) := by
  unfold step
  simp only [hfatal, hreset, hhalted, hint, Bool.false_eq_true, if_false]

/-- Settles O29: two fetches at PC that do not move it, then the handler is entered with B = 0. -/
theorem interruptEntry : Obligations.InterruptEntry := by
  unfold Obligations.InterruptEntry
  intro s kind hfatal hreset hhalted hint
  obtain ⟨hfetched, hkept⟩ := (Fetched.refl s).dummyPc.dummyPc
  have hregs : (dummyPc (dummyPc s)).regs = s.regs := hfetched.trans (Fetched.refl s).1.symm
  obtain ⟨nmi, hnmi, hirq, hnext, hafter, hpushed⟩ := enterInterrupt_law false (kind == .nmi) hkept (congrArg Regs.sp hregs)
  rw [hregs] at hafter hpushed
  refine ⟨_, nmi, step_interrupt hfatal hreset hhalted hint, hnext, fun hk => hnmi (by rw [hk]; rfl),
    fun hk hpending hctrl => hirq (by rw [hk]; rfl) (cpuRead_quiet _ (cpuRead_quiet _ ⟨hpending, hctrl⟩)), hafter, hpushed,
    ((passes_refl s).dummyPc.dummyPc.enterInterrupt _ _).cycles⟩

/-! ## The reset sequence (R298, R299) -/

theorem step_reset {s : State} (hfatal : s.fatal = none) (hreset : s.resetPending = true) :
    step s = .next (resetSequence s) := by
  unfold step
  simp only [hfatal, hreset, if_true]

/-- A suppressed push lowers S and writes nothing (R299). -/
theorem suppressedPush_law (s : State) :
    (suppressedPush s).regs = { s.regs with sp := s.regs.sp - 1 } ∧ (suppressedPush s).kept = s.kept := by
  obtain ⟨hregs, hkept⟩ := cpuRead_same (stackAddr s.regs.sp) s
  unfold suppressedPush dummyStack
  dsimp only
  obtain ⟨hset, hsetKept, -⟩ := setSp_law ((cpuRead (stackAddr s.regs.sp) s).regs.sp - 1) (cpuRead (stackAddr s.regs.sp) s)
  exact ⟨by rw [hset, hregs], hsetKept.trans hkept⟩

/-- The reset sequence lowers S by 3, sets I and jumps through the reset vector. -/
theorem resetSequence_law (s : State) :
    (resetSequence s).kept = { s.kept with resetPending := false, halted := false } ∧
      (resetSequence s).regs = { s.regs with
        sp := s.regs.sp - 3, pc := vectorAt s 0xFFFC, p := { s.regs.p with i := true } } := by
  obtain ⟨hfetched, hkept0⟩ := (Fetched.refl s).dummyPc.dummyPc
  have hregs0 : (dummyPc (dummyPc s)).regs = s.regs := hfetched.trans (Fetched.refl s).1.symm
  unfold resetSequence
  dsimp only
  generalize dummyPc (dummyPc s) = s0 at hkept0 hregs0 ⊢
  obtain ⟨hregs1, hkept1⟩ := suppressedPush_law s0
  obtain ⟨hregs2, hkept2⟩ := suppressedPush_law (suppressedPush s0)
  obtain ⟨hregs3, hkept3⟩ := suppressedPush_law (suppressedPush (suppressedPush s0))
  generalize suppressedPush (suppressedPush (suppressedPush s0)) = s3 at hregs3 hkept3 ⊢
  have hkept : s3.kept = s.kept := hkept3.trans (hkept2.trans (hkept1.trans hkept0))
  have hregs : s3.regs = { s.regs with sp := s.regs.sp - 3 } := by
    rw [hregs3, hregs2, hregs1, hregs0]
    dsimp only
    rw [BitVec.sub_sub, BitVec.sub_sub]
    rfl
  obtain ⟨hjump, hjumpKept⟩ := jumpThrough_rom 0xFFFC 0xFFFD (s3.mapRegs opSei) (by decide) (by decide)
  obtain ⟨hsei, hseiKept, -⟩ := mapRegs_law opSei s3
  have hrom (a : Word) : (s3.mapRegs opSei).cart.prgRomByte a = s.cart.prgRomByte a :=
    kept_prgRomByte (hseiKept.trans hkept) a
  generalize jumpThrough 0xFFFC 0xFFFD (s3.mapRegs opSei) = u at hjump hjumpKept ⊢
  refine ⟨?kept, ?regs⟩
  case kept =>
    have hu : u.kept = s.kept := hjumpKept.trans (hseiKept.trans hkept)
    rw [← hu]
    rfl
  case regs =>
    show u.regs = _
    rw [hjump, hsei, hregs, hrom, hrom]
    rfl

theorem resetSequence_cycles {s : State} (hd : NoDma s) : (resetSequence s).cpuCycle = s.cpuCycle + 7 :=
  ((((passes_refl s).dummyPc.dummyPc.suppressedPush.suppressedPush.suppressedPush).mapRegs opSei).jumpThrough
    0xFFFC 0xFFFD).cycles hd

/-- Settles O31: the law of the sequence, and the same from power-on. -/
theorem resetSequenceResult : Obligations.ResetSequenceResult := by
  unfold Obligations.ResetSequenceResult
  refine ⟨fun s hfatal hreset => ?anyState, fun params cart => ?powerOn⟩
  case anyState =>
    obtain ⟨hkept, hregs⟩ := resetSequence_law s
    exact ⟨_, step_reset hfatal hreset, rfl, hkept, hregs, resetSequence_cycles⟩
  case powerOn =>
    obtain ⟨-, hregs⟩ := resetSequence_law (State.powerOn params cart)
    exact ⟨_, step_reset rfl rfl, (resetSequence_cycles ⟨rfl, rfl, rfl⟩).trans (Nat.zero_add 7), hregs⟩

end Sys2Proof.Machine
end

section
/-!
PROOFS. The two DMA units (R203 to R205): OAM DMA copies a page (O54), DMC DMA fetches a sample byte (O55).
-/

namespace Sys2Proof.Machine

/-! ## What a cycle leaves of OAM with rendering off (R228, R229) -/

/-- OAM and OAMADDR agree. -/
def OamSame (s t : State) : Prop := t.ppu.oam = s.ppu.oam ∧ t.ppu.oamAddr = s.ppu.oamAddr

theorem OamSame.refl (s : State) : OamSame s s := ⟨rfl, rfl⟩

theorem OamSame.trans {s t u : State} (h : OamSame s t) (k : OamSame t u) : OamSame s u :=
  ⟨k.1.trans h.1, k.2.trans h.2⟩

theorem kept_renderingEnabled {s t : State} (h : t.kept = s.kept) : t.ppu.renderingEnabled = s.ppu.renderingEnabled := by
  have hview := congrArg (fun u : State => u.ppu.renderingEnabled) h
  exact hview

theorem renderDot_off {s : State} (h : s.ppu.renderingEnabled = false) :
    renderDot s = { s with ppu := { s.ppu with abus := s.ppu.v.setWidth 14 } } := by
  unfold renderDot Ppu.rendering
  rw [h, Bool.false_and, if_neg (by decide)]

theorem frameEvents_oam (p : Ppu) :
    p.frameEvents.oam = p.oam ∧ p.frameEvents.oamAddr = p.oamAddr ∧ p.frameEvents.mask = p.mask := by
  unfold Ppu.frameEvents
  repeat' split
  all_goals exact ⟨rfl, rfl, rfl⟩

theorem output_oam (p : Ppu) : p.output.oam = p.oam ∧ p.output.oamAddr = p.oamAddr := by
  unfold Ppu.output
  split <;> exact ⟨rfl, rfl⟩

theorem advance_oam (p : Ppu) : p.advance.oam = p.oam ∧ p.advance.oamAddr = p.oamAddr := by
  unfold Ppu.advance
  repeat' split
  all_goals exact ⟨rfl, rfl⟩

/-- With rendering off a dot is the frame's events, the pixel and the advance (R223, R258). -/
theorem ppuDot_off {s : State} (h : s.ppu.renderingEnabled = false) :
    (ppuDot s).ppu = ({ s.ppu.frameEvents with abus := s.ppu.frameEvents.v.setWidth 14 } : Ppu).output.advance := by
  have hoff : s.ppu.frameEvents.renderingEnabled = false := by
    rw [Ppu.renderingEnabled, (frameEvents_oam s.ppu).2.2]
    exact h
  have hrender := congrArg State.ppu (renderDot_off (s := { s with ppu := s.ppu.frameEvents }) hoff)
  exact (ppuObserve_ppu _).trans (congrArg (fun p : Ppu => p.output.advance) hrender)

theorem ppuDot_oam {s : State} (h : s.ppu.renderingEnabled = false) : OamSame s (ppuDot s) := by
  obtain ⟨eoam, eaddr, -⟩ := frameEvents_oam s.ppu
  unfold OamSame
  rw [ppuDot_off h]
  obtain ⟨ooam, oaddr⟩ := output_oam { s.ppu.frameEvents with abus := s.ppu.frameEvents.v.setWidth 14 }
  obtain ⟨aoam, aaddr⟩ := advance_oam ({ s.ppu.frameEvents with abus := s.ppu.frameEvents.v.setWidth 14 } : Ppu).output
  exact ⟨aoam.trans (ooam.trans eoam), aaddr.trans (oaddr.trans eaddr)⟩

theorem ppuDots_oam (n : Nat) {s : State} (h : s.ppu.renderingEnabled = false) : OamSame s (ppuDots n s) := by
  induction n generalizing s with
  | zero => exact .refl s
  | succ n ih => exact (ppuDot_oam h).trans (ih ((kept_renderingEnabled (ppuDot_same s).2).trans h))

theorem readAccess_oam (a : Word) (s : State) : OamSame s (readAccess a s) := by
  unfold readAccess ppuRegRead readStatus raceNmi readOamData readData readPort0 readPort1 readApuStatus
  dsimp only
  repeat' split
  all_goals exact ⟨rfl, rfl⟩

theorem cycleEnd_oam {s : State} (h : s.ppu.renderingEnabled = false) : OamSame s (cycleEnd s) := by
  have hppu : (cycleEnd s).ppu = (ppuDots (3 - s.params.ppuPhase.val) s).ppu := apuCycle_ppu _
  unfold OamSame
  rw [hppu]
  exact ppuDots_oam _ h

theorem readCycle_oam (a : Word) {s : State} (h : s.ppu.renderingEnabled = false) : OamSame s (cycle (readAccess a) s) := by
  have hkept := ((ppuDots_same s.params.ppuPhase.val s).trans (readAccess_same a _)).2
  exact ((ppuDots_oam _ h).trans (readAccess_oam a _)).trans (cycleEnd_oam ((kept_renderingEnabled hkept).trans h))

/-- A cycle that reads plain memory leaves its byte on the bus. -/
theorem readCycle_cpuBus {a : Word} {s : State} {b : Byte} (h : memByte s a = some b) : (cycle (readAccess a) s).cpuBus = b := by
  unfold cycle
  rw [cycleEnd_cpuBus, readAccess_memByte ((kept_memByte (ppuDots_same _ s).2 a).trans h)]

/-! ## OAM DMA (R204) -/

/-- A cycle of an OAM DMA: after it the kept state is as before, no DMA is due, and one cycle has passed. -/
structure DmaCycle (s t : State) : Prop where
  kept : t.kept = s.kept
  noDma : NoDma t
  time : t.cpuCycle = s.cpuCycle + 1

theorem readCycle_dma (a : Word) {s : State} (h : NoDma s) : DmaCycle s (cycle (readAccess a) s) where
  kept := (cycle_same _ (readAccess_same a) s).2
  noDma := cycle_noDma _ (readAccess_time a) h
  time := cycle_cpuCycle _ (fun t => (readAccess_time a t).1) s

theorem writeOam_time (v : Byte) (s : State) : TimeSame s (writeAccess 0x2004 v s) := ⟨rfl, rfl, rfl, rfl⟩

theorem writeCycle_dma (v : Byte) {s : State} (h : NoDma s) : DmaCycle s (cycle (writeAccess 0x2004 v) s) where
  kept := (cycle_same _ (writeOam_same v) s).2
  noDma := cycle_noDma _ (writeOam_time v) h
  time := cycle_cpuCycle _ (writeAccess_cpuCycle 0x2004 v) s

/-- A put cycle stores at OAMADDR and steps it (R229). -/
theorem writeCycle_oam (v : Byte) {s : State} (h : s.ppu.renderingEnabled = false) :
    (cycle (writeAccess 0x2004 v) s).ppu.oam = s.ppu.oam.set s.ppu.oamAddr.toNat v s.ppu.oamAddr.isLt ∧
      (cycle (writeAccess 0x2004 v) s).ppu.oamAddr = s.ppu.oamAddr + 1 := by
  obtain ⟨doam, daddr⟩ := ppuDots_oam s.params.ppuPhase.val h
  have hkept := (ppuDots_same s.params.ppuPhase.val s).2
  unfold cycle
  generalize ppuDots s.params.ppuPhase.val s = u at doam daddr hkept ⊢
  have hoff : u.ppu.renderingEnabled = false := (kept_renderingEnabled hkept).trans h
  have hafter := (kept_renderingEnabled (writeOam_same v u).2).trans hoff
  obtain ⟨eoam, eaddr⟩ := cycleEnd_oam hafter
  have hrend : ({ u.ppu with ioLatch := v } : Ppu).rendering = false := by
    rw [Ppu.rendering]
    exact (congrArg (· && _) hoff).trans (Bool.false_and _)
  have hwrite : (writeAccess 0x2004 v u).ppu = Ppu.writeOamData v { u.ppu with ioLatch := v } := rfl
  rw [eoam, eaddr, hwrite, writeOamData_off v hrend]
  exact ⟨by simp only [doam, daddr], by simp only [daddr]⟩

/-- After i bytes of an OAM DMA that began in s: OAM from s's OAMADDR on holds them, and 2 i cycles have passed. -/
structure Copied (d : Byte → Byte) (s : State) (i : Nat) (t : State) : Prop where
  kept : t.kept = s.kept
  noDma : NoDma t
  time : t.cpuCycle = s.cpuCycle + 2 * i
  oamAddr : t.ppu.oamAddr = s.ppu.oamAddr + BitVec.ofNat 8 i
  oam : ∀ j : Byte, j.toNat < i → t.ppu.oam[(s.ppu.oamAddr + j).toFin] = d j

theorem dmcSlot_noDma (a : Word) {s : State} (h : NoDma s) : dmcSlot a s = s := by
  obtain ⟨-, hdma, -⟩ := h
  rw [dmcSlot, hdma, if_neg (by decide)]

section Copy

variable {s : State} {page : Byte} {d : Byte → Byte} (hoff : s.ppu.renderingEnabled = false)
  (hpage : ∀ i : Byte, memByte s (w16 page i) = some (d i))
include hoff hpage

/-- One byte: a get cycle reads it from the page, a put cycle stores it. -/
theorem Copied.step (a : Word) {i : Nat} {t : State} (h : Copied d s i t) :
    Copied d s (i + 1) (oamByte a (w16 page (BitVec.ofNat 8 i)) t) := by
  have hbyte : memByte t (w16 page (BitVec.ofNat 8 i)) = some (d (BitVec.ofNat 8 i)) :=
    (kept_memByte h.kept _).trans (hpage _)
  have hoff1 := (kept_renderingEnabled h.kept).trans hoff
  have hbus := readCycle_cpuBus hbyte
  have hget := readCycle_dma (w16 page (BitVec.ofNat 8 i)) h.noDma
  obtain ⟨goam, gaddr⟩ := readCycle_oam (w16 page (BitVec.ofNat 8 i)) hoff1
  unfold oamByte
  dsimp only
  rw [dmcSlot_noDma a h.noDma, dmcSlot_noDma a h.noDma, hbus]
  generalize cycle (readAccess (w16 page (BitVec.ofNat 8 i))) t = u at hget goam gaddr ⊢
  have hput := writeCycle_dma (d (BitVec.ofNat 8 i)) hget.noDma
  obtain ⟨poam, paddr⟩ := writeCycle_oam (d (BitVec.ofNat 8 i)) ((kept_renderingEnabled hget.kept).trans hoff1)
  have haddr : u.ppu.oamAddr = s.ppu.oamAddr + BitVec.ofNat 8 i := gaddr.trans h.oamAddr
  refine ⟨hput.kept.trans (hget.kept.trans h.kept), hput.noDma, ?time, ?addr, fun j hj => ?oam⟩
  case time => rw [hput.time, hget.time, h.time]; omega
  case addr => rw [paddr, haddr, BitVec.add_assoc, BitVec.ofNat_add]; rfl
  case oam =>
    rw [poam, oam_set, haddr, goam]
    by_cases hlast : j = BitVec.ofNat 8 i
    · rw [if_pos (by rw [hlast]), hlast]
    · have hne : j.toNat ≠ i := fun e => hlast (by rw [← e, BitVec.ofNat_toNat, BitVec.setWidth_eq])
      rw [if_neg (fun e => hlast (add_left_cancel e))]
      exact h.oam j (by omega)

theorem Copied.bytes (a : Word) (n : Nat) {i : Nat} {t : State} (h : Copied d s i t) :
    Copied d s (i + n) (oamBytes a page n i t) := by
  induction n generalizing i t with
  | zero => exact h
  | succ n ih =>
    rw [← Nat.succ_add_eq_add_succ]
    exact ih (h.step hoff hpage a)

end Copy

theorem parity_eq (s : State) : isPut s = decide (s.cpuCycle % 2 = s.params.apuPutParity.val) := by
  rw [isPut, Bool.beq_eq_decide_eq]

/-- The halt cycle, and the alignment cycle if a put cycle would follow it (R204). -/
theorem haltCycles (a : Word) {s : State} (h : NoDma s) (hoff : s.ppu.renderingEnabled = false) :
    let s1 := cycle (readAccess a) s
    let s2 := if isPut s1 then cycle (readAccess a) s1 else s1
    s2.kept = s.kept ∧ NoDma s2 ∧ OamSame s s2 ∧
      s2.cpuCycle = s.cpuCycle + (if (s.cpuCycle + 1) % 2 = s.params.apuPutParity.val then 2 else 1) := by
  intro s1 s2
  have hhalt : DmaCycle s s1 := readCycle_dma a h
  have hoam : OamSame s s1 := readCycle_oam a hoff
  have hput : isPut s1 = decide ((s.cpuCycle + 1) % 2 = s.params.apuPutParity.val) := by
    rw [parity_eq, hhalt.time, kept_params hhalt.kept]
  by_cases hp : (s.cpuCycle + 1) % 2 = s.params.apuPutParity.val
  · have halign := readCycle_dma a hhalt.noDma
    have hs2 : s2 = cycle (readAccess a) s1 := if_pos (by rw [hput, decide_eq_true hp])
    rw [hs2, if_pos hp]
    exact ⟨halign.kept.trans hhalt.kept, halign.noDma,
      hoam.trans (readCycle_oam a ((kept_renderingEnabled hhalt.kept).trans hoff)), by rw [halign.time, hhalt.time]⟩
  · have hs2 : s2 = s1 := if_neg (by rw [hput, decide_eq_false hp]; decide)
    rw [hs2, if_neg hp]
    exact ⟨hhalt.kept, hhalt.noDma, hoam, hhalt.time⟩

/-- The whole of an OAM DMA (R204). -/
theorem runOam_law (a : Word) {s : State} {page : Byte} {d : Byte → Byte} (hdma : s.dmcDma = false)
    (hrem : s.apu.dmc.remaining = 0) (hoff : s.ppu.renderingEnabled = false)
    (hpage : ∀ i : Byte, memByte s (w16 page i) = some (d i)) :
    NoDma (runOam a page s) ∧ (runOam a page s).kept = s.kept ∧
      (∀ i : Byte, (runOam a page s).ppu.oam[(s.ppu.oamAddr + i).toFin] = d i) ∧
      (runOam a page s).cpuCycle =
        s.cpuCycle + (if (s.cpuCycle + 1) % 2 = s.params.apuPutParity.val then 514 else 513) := by
  obtain ⟨hkept, hnone, ⟨-, haddr⟩, htime⟩ := haltCycles a (s := { s with oamDma := none }) ⟨rfl, hdma, hrem⟩ hoff
  unfold runOam
  dsimp only at hkept hnone haddr htime ⊢
  generalize (if isPut (cycle (readAccess a) { s with oamDma := none }) = true then _ else _) = s2 at *
  have hkept2 : s2.kept = s.kept := hkept
  have hcopied : Copied d s2 256 (oamBytes a page 256 0 s2) := by
    refine Copied.bytes ((kept_renderingEnabled hkept2).trans hoff) (fun i => (kept_memByte hkept2 _).trans (hpage i)) a 256
      (i := 0) ⟨rfl, hnone, rfl, (BitVec.add_zero _).symm, fun j hj => absurd hj (Nat.not_lt_zero _)⟩
  refine ⟨hcopied.noDma, hcopied.kept.trans hkept2, fun i => ?oam, ?time⟩
  case oam =>
    have hbyte := hcopied.oam i i.isLt
    simpa only [haddr] using hbyte
  case time =>
    rw [hcopied.time, htime]
    split <;> rfl

/-- Settles O54: the DMA, and then the read that waited for it. -/
theorem oamDmaCopiesPage : Obligations.OamDmaCopiesPage := by
  unfold Obligations.OamDmaCopiesPage
  intro s a page d hoam hdma hrem hoff hpage t
  obtain ⟨hregs, hkept⟩ := cpuRead_same a s
  obtain ⟨hnone, hdmaKept, hcopy, htime⟩ := runOam_law a hdma hrem hoff hpage
  have hservice : serviceDma a s = runOam a page s := by
    have hrun : serviceOam a s = runOam a page s := by rw [serviceOam, hoam]
    rw [serviceDma, hrun, serviceDmc, hnone.2.1, if_neg (by decide)]
  have ht : t = cycle (readAccess a) (runOam a page s) := by rw [← hservice]; rfl
  have hread := readCycle_dma a hnone
  obtain ⟨ooam, -⟩ := readCycle_oam a ((kept_renderingEnabled hdmaKept).trans hoff)
  refine ⟨by rw [ht]; exact hread.noDma.1, hregs, hkept, fun i => ?_, by rw [ht, hread.time, htime]⟩
  rw [ht, ooam]
  exact hcopy i

/-! ## DMC DMA (R205, R279, R280) -/

theorem commit_dmcIrq (w : Option LateWrite) (a : Apu) : (a.commit w).dmcIrq = a.dmcIrq := by
  unfold Apu.commit Apu.setLength Apu.setHalt
  repeat' split
  all_goals rfl

theorem runSeq_dmcIrq (e : SeqStep) (a : Apu) : (a.runSeq e).dmcIrq = a.dmcIrq := by
  unfold Apu.runSeq
  dsimp only
  cases e.quarter <;> cases e.half <;> rfl

theorem sequencer_dmcIrq (a : Apu) : a.sequencer.dmcIrq = a.dmcIrq := by
  unfold Apu.sequencer
  dsimp only
  split
  · rw [commit_dmcIrq, runSeq_dmcIrq]
  · rw [runSeq_dmcIrq, commit_dmcIrq]

theorem dmc_clockTimer_address (d : Dmc) : d.clockTimer.address = d.address := by
  unfold Dmc.clockTimer Dmc.outputStep
  dsimp only
  repeat' split
  all_goals rfl

/-- What is left to fetch, and the DMC's interrupt flag, agree. -/
structure SampleSame (s t : State) : Prop where
  address : t.apu.dmc.address = s.apu.dmc.address
  remaining : t.apu.dmc.remaining = s.apu.dmc.remaining
  dmcIrq : t.apu.dmcIrq = s.apu.dmcIrq

theorem SampleSame.trans {s t u : State} (h : SampleSame s t) (k : SampleSame t u) : SampleSame s u :=
  ⟨k.address.trans h.address, k.remaining.trans h.remaining, k.dmcIrq.trans h.dmcIrq⟩

theorem SampleSame.of_apu {s t : State} (hdmc : t.apu.dmc = s.apu.dmc) (hirq : t.apu.dmcIrq = s.apu.dmcIrq) :
    SampleSame s t := ⟨by rw [hdmc], by rw [hdmc], hirq⟩

theorem sampleCheck_dmc (s : State) :
    (sampleCheck s).apu.dmc = s.apu.dmc ∧ (sampleCheck s).apu.dmcIrq = s.apu.dmcIrq ∧ (sampleCheck s).dmcDma = s.dmcDma := by
  unfold sampleCheck
  dsimp only
  repeat' split
  all_goals exact ⟨rfl, rfl, rfl⟩

theorem dmcReader_apu (s : State) : (dmcReader s).apu = s.apu := by
  unfold dmcReader
  split <;> rfl

theorem dmcReader_full {s : State} (h : s.apu.dmc.buffer ≠ none) : dmcReader s = s := if_neg fun hc => h hc.1

/-- The DMC after the APU's work of a cycle: its timer alone has run, and that in a put cycle only (R261). -/
theorem apuCycle_dmc (s : State) :
    (apuCycle s).apu.dmc = (if isPut s then s.apu.dmc.clockTimer else s.apu.dmc) ∧
      (apuCycle s).apu.dmcIrq = s.apu.dmcIrq := by
  obtain ⟨hdmc, hirq, -⟩ := sampleCheck_dmc (dmcReader { s with apu := s.apu.sequencer.timers (isPut s) })
  rw [dmcReader_apu] at hdmc hirq
  refine ⟨hdmc.trans ?_, hirq.trans ?_⟩
  · rw [← sequencer_dmc s.apu]
    cases isPut s <;> rfl
  · rw [← sequencer_dmcIrq s.apu]
    cases isPut s <;> rfl

theorem apuCycle_sample (s : State) : SampleSame s (apuCycle s) := by
  obtain ⟨hdmc, hirq⟩ := apuCycle_dmc s
  cases hput : isPut s
  · exact .of_apu (hdmc.trans (by rw [hput]; rfl)) hirq
  · rw [hput, if_pos rfl] at hdmc
    exact ⟨by rw [hdmc, dmc_clockTimer_address], by rw [hdmc, dmc_clockTimer_remaining], hirq⟩

/-- In a get cycle a full sample buffer stays full, and none is requested. -/
theorem apuCycle_full {s : State} {b : Byte} (hput : isPut s = false) (hbuffer : s.apu.dmc.buffer = some b) :
    (apuCycle s).apu.dmc.buffer = some b ∧ (apuCycle s).dmcDma = s.dmcDma := by
  refine ⟨by rw [(apuCycle_dmc s).1, hput, if_neg (by decide), hbuffer], (sampleCheck_dmc _).2.2.trans ?_⟩
  have hdmc : (s.apu.sequencer.timers (isPut s)).dmc.buffer = some b := by
    rw [hput]
    exact (congrArg Dmc.buffer (sequencer_dmc s.apu)).trans hbuffer
  rw [dmcReader_full (by rw [hdmc]; exact Option.some_ne_none b)]

theorem ppuDots_sample (n : Nat) (s : State) : SampleSame s (ppuDots n s) :=
  .of_apu (by rw [ppuDots_apu]) (by rw [ppuDots_apu])

theorem readAccess_dmcIrq (a : Word) (s : State) : (readAccess a s).apu.dmcIrq = s.apu.dmcIrq := by
  obtain ⟨irq, hapu⟩ := readAccess_apu a s
  rw [hapu]

theorem cycleEnd_sample (s : State) : SampleSame s (cycleEnd s) := by
  obtain ⟨haddr, hrem, hirq⟩ := (ppuDots_sample (3 - s.params.ppuPhase.val) s).trans (apuCycle_sample _)
  exact ⟨haddr, hrem, hirq⟩

theorem ppuDots_isPut (n : Nat) (s : State) : isPut (ppuDots n s) = isPut s := by
  rw [isPut, isPut, (ppuDots_time n s).1, kept_params (ppuDots_same n s).2]

theorem cycleEnd_full {s : State} {b : Byte} (hput : isPut s = false) (hbuffer : s.apu.dmc.buffer = some b) :
    (cycleEnd s).apu.dmc.buffer = some b ∧ (cycleEnd s).dmcDma = s.dmcDma := by
  obtain ⟨-, -, hdma, hdmc⟩ := ppuDots_time (3 - s.params.ppuPhase.val) s
  obtain ⟨hfull, hnone⟩ := apuCycle_full (s := ppuDots (3 - s.params.ppuPhase.val) s) (b := b)
    (by rw [ppuDots_isPut, hput]) (by rw [hdmc, hbuffer])
  exact ⟨hfull, hnone.trans hdma⟩

/-- After n cycles of a DMA that wait for its get cycle. -/
structure Waited (n : Nat) (s t : State) : Prop where
  kept : t.kept = s.kept
  time : t.cpuCycle = s.cpuCycle + n
  sample : SampleSame s t

theorem Waited.refl (s : State) : Waited 0 s s := ⟨rfl, rfl, rfl, rfl, rfl⟩

theorem Waited.read {n : Nat} {s t : State} (h : Waited n s t) (a : Word) : Waited (n + 1) s (cycle (readAccess a) t) where
  kept := ((cycle_same _ (readAccess_same a) t).2).trans h.kept
  time := (cycle_cpuCycle _ (fun u => (readAccess_time a u).1) t).trans (congrArg (· + 1) h.time)
  sample := by
    have hread (u : State) : SampleSame u (readAccess a u) :=
      .of_apu (readAccess_time a u).2.2.2 (readAccess_dmcIrq a u)
    exact ((h.sample.trans (ppuDots_sample _ t)).trans (hread _)).trans (cycleEnd_sample _)

theorem Waited.isPut {n : Nat} {s t : State} (h : Waited n s t) :
    isPut t = decide ((s.cpuCycle + n) % 2 = s.params.apuPutParity.val) := by
  rw [parity_eq, h.time, kept_params h.kept]

/-- The halt, dummy and alignment cycles of a DMC DMA: the get cycle that follows is no put cycle (R205). -/
theorem dmcWait (a : Word) (s : State) :
    let s1 := cycle (readAccess a) (cycle (readAccess a) s)
    let s2 := if Machine.isPut s1 then cycle (readAccess a) s1 else s1
    Waited (if s.cpuCycle % 2 = s.params.apuPutParity.val then 3 else 2) s s2 ∧ Machine.isPut s2 = false := by
  intro s1 s2
  have hwait : Waited 2 s s1 := ((Waited.refl s).read a).read a
  have hput := hwait.isPut
  rw [Nat.add_mod_right] at hput
  by_cases hp : s.cpuCycle % 2 = s.params.apuPutParity.val
  · have hs2 : s2 = cycle (readAccess a) s1 := if_pos (by rw [hput, decide_eq_true hp])
    have halign := hwait.read a
    rw [hs2, if_pos hp]
    refine ⟨halign, ?_⟩
    rw [halign.isPut, decide_eq_false (by omega)]
  · have hs2 : s2 = s1 := if_neg (by rw [hput, decide_eq_false hp]; decide)
    rw [hs2, if_neg hp]
    exact ⟨hwait, by rw [hput, decide_eq_false hp]⟩

/-- Where the DMC reads after an address (R279). -/
def nextSample (a : Word) : Word := if a = 0xFFFF then 0x8000 else a + 1

/-- What a sample byte taken does to the DMC's reader: t is the APU after it, d the DMC and irq its interrupt flag before
it (R279, R280). -/
structure Taken (d : Dmc) (irq : Bool) (t : Apu) : Prop where
  more : d.remaining ≠ 1 → t.dmc.address = nextSample d.address ∧ t.dmc.remaining = d.remaining - 1 ∧ t.dmcIrq = irq
  restart : d.remaining = 1 → d.loop = true → t.dmc.address = d.startAddr ∧ t.dmc.remaining = d.startLen ∧ t.dmcIrq = irq
  last : d.remaining = 1 → d.loop = false →
    t.dmc.address = nextSample d.address ∧ t.dmc.remaining = 0 ∧ t.dmcIrq = (irq || d.irqEn)

theorem takeSample_buffer (b : Byte) (r : BitVec 12) (a : Apu) : (a.takeSample b r).dmc.buffer = some b := by
  unfold Apu.takeSample
  dsimp only
  repeat' split
  all_goals rfl

theorem takeSample_taken (b : Byte) (a : Apu) :
    Taken a.dmc a.dmcIrq (a.takeSample b (a.dmc.remaining - 1)) := by
  have hzero : a.dmc.remaining - 1 = 0 ↔ a.dmc.remaining = 1 := sub_eq_zero
  unfold Apu.takeSample
  dsimp only
  refine ⟨fun h => ?more, fun h hloop => ?restart, fun h hloop => ?last⟩
  case more =>
    rw [if_neg (fun h0 => h (hzero.1 h0))]
    exact ⟨rfl, rfl, rfl⟩
  case restart =>
    rw [if_pos (hzero.2 h), if_pos hloop]
    exact ⟨rfl, rfl, rfl⟩
  case last =>
    rw [if_pos (hzero.2 h), if_neg (by rw [hloop]; decide)]
    exact ⟨rfl, hzero.2 h, rfl⟩

/-- The access of the get cycle, with a byte remaining. -/
theorem dmcAccess_taken {s : State} {b : Byte} (hrem : s.apu.dmc.remaining ≠ 0)
    (hbyte : memByte s s.apu.dmc.address = some b) :
    (dmcAccess s).dmcDma = false ∧ (dmcAccess s).apu.dmc.buffer = some b ∧ (dmcAccess s).cpuCycle = s.cpuCycle ∧
      Taken s.apu.dmc s.apu.dmcIrq (dmcAccess s).apu := by
  obtain ⟨htime, -, -, hdmc⟩ := readAccess_time s.apu.dmc.address s
  have hirq := readAccess_dmcIrq s.apu.dmc.address s
  have hbus := readAccess_memByte hbyte
  unfold dmcAccess dmcDone
  dsimp only
  generalize readAccess s.apu.dmc.address s = u at htime hdmc hirq hbus ⊢
  rw [if_neg (by rw [hdmc]; exact hrem), hbus]
  refine ⟨rfl, takeSample_buffer _ _ _, htime, ?_⟩
  rw [← hdmc, ← hirq]
  exact takeSample_taken b u.apu

/-- The get cycle: its timers leave the buffer alone, since it is no put cycle. -/
theorem dmcCycle_taken {s : State} {b : Byte} (hput : isPut s = false) (hrem : s.apu.dmc.remaining ≠ 0)
    (hbyte : memByte s s.apu.dmc.address = some b) :
    (cycle dmcAccess s).dmcDma = false ∧ (cycle dmcAccess s).apu.dmc.buffer = some b ∧
      (cycle dmcAccess s).cpuCycle = s.cpuCycle + 1 ∧ Taken s.apu.dmc s.apu.dmcIrq (cycle dmcAccess s).apu := by
  have hkept := (ppuDots_same s.params.ppuPhase.val s).2
  have hapu := ppuDots_apu s.params.ppuPhase.val s
  have hdots := (ppuDots_time s.params.ppuPhase.val s).1
  have hputDots := ppuDots_isPut s.params.ppuPhase.val s
  unfold cycle
  generalize ppuDots s.params.ppuPhase.val s = u at hkept hapu hdots hputDots ⊢
  obtain ⟨hdma, hbuffer, htime, htaken⟩ := dmcAccess_taken (s := u) (b := b) (by rw [hapu]; exact hrem)
    (by rw [kept_memByte hkept, hapu]; exact hbyte)
  have hparams := kept_params (dmcAccess_same u).2
  obtain ⟨hfull, hnone⟩ := cycleEnd_full (s := dmcAccess u) (b := b)
    (by rw [isPut, htime, hparams]; exact hputDots.trans hput) hbuffer
  have hend := cycleEnd_sample (dmcAccess u)
  rw [hapu] at htaken
  refine ⟨hnone.trans hdma, hfull, by rw [(cycleEnd_time _).1, htime, hdots], ?_, ?_, ?_⟩
  · rw [hend.address, hend.remaining, hend.dmcIrq]
    exact htaken.more
  · rw [hend.address, hend.remaining, hend.dmcIrq]
    exact htaken.restart
  · rw [hend.address, hend.remaining, hend.dmcIrq]
    exact htaken.last

/-- What of the DMC's settings a sample's end consults. -/
theorem kept_dmc {s t : State} (h : t.kept = s.kept) :
    t.apu.dmc.loop = s.apu.dmc.loop ∧ t.apu.dmc.irqEn = s.apu.dmc.irqEn ∧ t.apu.dmc.startAddr = s.apu.dmc.startAddr ∧
      t.apu.dmc.startLen = s.apu.dmc.startLen := by
  have hloop := congrArg (fun u : State => u.apu.dmc.loop) h
  have hirqEn := congrArg (fun u : State => u.apu.dmc.irqEn) h
  have haddr := congrArg (fun u : State => u.apu.dmc.startAddr) h
  have hlen := congrArg (fun u : State => u.apu.dmc.startLen) h
  exact ⟨hloop, hirqEn, haddr, hlen⟩

/-- The whole of a DMC DMA: the cycles that wait, and the get cycle. -/
theorem runDmc_taken (a : Word) {s : State} {b : Byte} (hrem : s.apu.dmc.remaining ≠ 0)
    (hbyte : memByte s s.apu.dmc.address = some b) :
    (runDmc a s).dmcDma = false ∧ (runDmc a s).apu.dmc.buffer = some b ∧
      (runDmc a s).cpuCycle = s.cpuCycle + (if s.cpuCycle % 2 = s.params.apuPutParity.val then 4 else 3) ∧
      Taken s.apu.dmc s.apu.dmcIrq (runDmc a s).apu := by
  obtain ⟨⟨hkept, htime, haddr, hremain, hirq⟩, hput⟩ := dmcWait a s
  obtain ⟨hloop, hirqEn, hstart, hlen⟩ := kept_dmc hkept
  unfold runDmc
  dsimp only at hkept htime haddr hremain hirq hput hloop hirqEn hstart hlen ⊢
  generalize (if isPut (cycle (readAccess a) (cycle (readAccess a) s)) = true then _ else _) = s2 at *
  obtain ⟨hdma, hbuffer, hcycle, hmore, hrestart, hlast⟩ := dmcCycle_taken (s := s2) (b := b) hput (by rw [hremain]; exact hrem)
    (by rw [kept_memByte hkept, haddr]; exact hbyte)
  rw [haddr, hremain, hirq] at hmore
  rw [hremain, hloop, hstart, hlen, hirq] at hrestart
  rw [haddr, hremain, hloop, hirq, hirqEn] at hlast
  refine ⟨hdma, hbuffer, ?_, hmore, hrestart, hlast⟩
  rw [hcycle, htime]
  split <;> rfl

/-- Disabling the DMC by a write of $4015 leaves no byte remaining and no request (R263, log 12). -/
theorem disable_withdraws (s : State) {v : Byte} (h : v.getLsbD 4 = false) :
    (cpuWrite 0x4015 v s).dmcDma = false ∧ (cpuWrite 0x4015 v s).apu.dmc.remaining = 0 := by
  unfold cpuWrite cycle
  generalize ppuDots s.params.ppuPhase.val s = u
  have hdma : (writeAccess 0x4015 v u).dmcDma = false := by
    show (u.dmcDma && v.getLsbD 4) = false
    rw [h, Bool.and_false]
  have hrem : (writeAccess 0x4015 v u).apu.dmc.remaining = 0 := by
    show (u.apu.writeEnables v).dmc.remaining = 0
    rw [Apu.writeEnables, h]
    rfl
  obtain ⟨-, -, hremEnd, hdmaEnd⟩ := cycleEnd_time (writeAccess 0x4015 v u)
  exact ⟨(hdmaEnd hrem).trans hdma, hremEnd.trans hrem⟩

/-- Settles O55: the DMA's law, and a disable's. -/
theorem dmcDmaFetchesByte : Obligations.DmcDmaFetchesByte := by
  unfold Obligations.DmcDmaFetchesByte
  refine ⟨fun s a b hoam hdma hrem hbyte => ?fetch, fun s v hv => disable_withdraws s hv⟩
  case fetch =>
    have hservice : serviceDma a s = runDmc a s := by
      have hnone : serviceOam a s = s := by rw [serviceOam, hoam]
      rw [serviceDma, hnone, serviceDmc, if_pos hdma]
    obtain ⟨hregs, hkept⟩ := runDmc_same a s
    obtain ⟨hdone, hbuffer, htime, hmore, hrestart, hlast⟩ := runDmc_taken a hrem hbyte
    rw [hservice]
    exact ⟨hdone, hregs, hkept, hbuffer, htime, hmore, hrestart, hlast⟩

end Sys2Proof.Machine
end
